-- ==== Sys2Proof/Word.lean ====
section
/-! DEFINITION. The words of the three ports: a byte, a frame of a crossing queue (R90, R91), and one
access on the host port (R140). Nothing here depends on a parameter of the block. -/

namespace Sys2Proof

/-- A payload byte, a control tag, a byte of a stream. -/
abbrev Byte := BitVec 8

/-- "Frame: 8-bit payload + 8-bit control tag", and the `last` marker beside the tag (R90, R43). -/
structure Frame where
  data : Byte
  ctrl : Byte
  last : Bool
  deriving DecidableEq, Repr, Inhabited

/-- The 17-bit word `F = {last, ctrl[7:0], data[7:0]}` (R91). -/
def Frame.word (f : Frame) : BitVec 17 :=
  BitVec.ofBool f.last ++ f.ctrl ++ f.data

/-- The frame whose word is `w` (R91): `F[16] = last`, `F[15:8] = ctrl`, `F[7:0] = data`. -/
def Frame.ofWord (w : BitVec 17) : Frame :=
  { data := w.extractLsb' 0 8, ctrl := w.extractLsb' 8 8, last := w.getLsbD 16 }

/-- One access on the host port: write or read, the register's id (R21), and the write data, which is
carried beside the 5-bit word `{we, id[3:0]}` (R111). The value lines are as wide as the widest
writable register; a narrower register takes the low bits (R141). -/
structure HostAccess where
  we    : Bool
  id    : BitVec 4
  value : BitVec 32
  deriving DecidableEq, Repr, Inhabited

/-- The 5-bit word of an access (R111). -/
def HostAccess.word (a : HostAccess) : BitVec 5 :=
  BitVec.ofBool a.we ++ a.id

/-- A word together with the port it is on. The port is no bit of the word: a down frame and an up
frame are both 17 bits, and `FD` and `FU` rows of the operation table share numbers. -/
inductive PortWord where
  | host (a : HostAccess)
  | down (f : Frame)
  | up (f : Frame)
  deriving DecidableEq, Repr

end Sys2Proof
end

