-- ==== Sys2Proof/Config.lean ====
section
/-! DEFINITION. What is fixed for one block and not for all blocks: the parameters of R9 with the
defaults the spec decided, and the environment (R7, R51): the inputs of a tick, and the one free value
of the model, the environment's next event where no event is given in the state. -/

namespace Sys2Proof

/-- The frame modes (R95). `tc k`: `CFG_TIMEOUT_CMD[k]`; `td k`: `CFG_TIMEOUT_DATA[k]`;
`bs k`: `CFG_BLKSIZE[k]`; `volt`: `CFG_VOLTAGE`. -/
inductive Mode where
  | xfer
  | tc0 | tc1 | tc2 | tc3
  | td0 | td1 | td2 | td3
  | bs0 | bs1
  | volt
  deriving DecidableEq, Repr

/-- Every mode, in the order of R95. -/
def Mode.all : List Mode :=
  [.xfer, .tc0, .tc1, .tc2, .tc3, .td0, .td1, .td2, .td3, .bs0, .bs1, .volt]

/-- `ModeEncoding` (R9): the 6-bit value of each mode. -/
structure ModeEncoding where
  xfer : BitVec 6
  tc0 : BitVec 6
  tc1 : BitVec 6
  tc2 : BitVec 6
  tc3 : BitVec 6
  td0 : BitVec 6
  td1 : BitVec 6
  td2 : BitVec 6
  td3 : BitVec 6
  bs0 : BitVec 6
  bs1 : BitVec 6
  volt : BitVec 6
  deriving DecidableEq, Repr

/-- The value of a mode. -/
def ModeEncoding.code (e : ModeEncoding) : Mode → BitVec 6
  | .xfer => e.xfer
  | .tc0 => e.tc0 | .tc1 => e.tc1 | .tc2 => e.tc2 | .tc3 => e.tc3
  | .td0 => e.td0 | .td1 => e.td1 | .td2 => e.td2 | .td3 => e.td3
  | .bs0 => e.bs0 | .bs1 => e.bs1
  | .volt => e.volt

/-- The mode of a value; none for a reserved one. -/
def ModeEncoding.mode? (e : ModeEncoding) (c : BitVec 6) : Option Mode :=
  Mode.all.find? fun m => e.code m == c

/-- "any injective map works" (D3). -/
def ModeEncoding.injective (e : ModeEncoding) : Bool :=
  decide ((Mode.all.map e.code).Nodup)

/-- The default of R95: XFER 0; 1 to 4; 5 to 8; 9, 10; 11. -/
def ModeEncoding.listOrder : ModeEncoding where
  xfer := 0
  tc0 := 1
  tc1 := 2
  tc2 := 3
  tc3 := 4
  td0 := 5
  td1 := 6
  td2 := 7
  td3 := 8
  bs0 := 9
  bs1 := 10
  volt := 11

/-- `CfgByteOrder` (R9): which byte of a field offset `k` names. `lsbFirst`: bits `[8k+7:8k]` (R66). -/
inductive CfgByteOrder where
  | lsbFirst
  | msbFirst
  deriving DecidableEq, Repr

/-- `BUSY_WRITE_POLICY` (R9, R152). `drop`: the trigger is lost. `defer`: the trigger is remembered, one
pending bit per register (D18), and serviced from IDLE. -/
inductive BusyWritePolicy where
  | drop
  | defer
  deriving DecidableEq, Repr

/-- `UQ_IDLE_POLICY` (R9, R171, R394). `drain`: "IDLE pops and discards". -/
inductive UqIdlePolicy where
  | hold
  | drain
  deriving DecidableEq, Repr

/-- The host configuration registers that a write can reach (R21 to R26, R54). -/
structure HostRegs where
  argument    : BitVec 32
  command     : BitVec 32
  cmdtimeout  : BitVec 32
  datatimeout : BitVec 32
  voltage     : BitVec 8
  blocksize   : BitVec 16
  blockcount  : BitVec 16
  deriving DecidableEq, Repr

/-- All host configuration registers 0. -/
def HostRegs.zero : HostRegs where
  argument := 0
  command := 0
  cmdtimeout := 0
  datatimeout := 0
  voltage := 0
  blocksize := 0
  blockcount := 0

/-- The framer's Configuration copy (R46). -/
structure FramerRegs where
  cmdtimeout  : BitVec 32
  datatimeout : BitVec 32
  blocksize   : BitVec 16
  voltage     : Bool
  deriving DecidableEq, Repr

/-- The framer's Configuration copy, all zero. -/
def FramerRegs.zero : FramerRegs where
  cmdtimeout := 0
  datatimeout := 0
  blocksize := 0
  voltage := false

/-- The parameters of R9 that the source leaves open. `QueueLag` is no field: it is the scheduler's
choice, an event of the environment. -/
structure Config where
  modes           : ModeEncoding
  byteOrder       : CfgByteOrder
  readlenBias     : BitVec 8
  crc7CheckWidth  : Nat
  crc7Poly        : BitVec 7
  crc16Poly       : BitVec 16
  busyWritePolicy : BusyWritePolicy
  uqIdlePolicy    : UqIdlePolicy
  doneOnTimeout   : Bool
  dataWidth       : Nat
  resetHost       : HostRegs
  resetFramer     : FramerRegs
  deriving DecidableEq, Repr

/-- The defaults of R9. -/
def Config.default : Config where
  modes := .listOrder
  byteOrder := .lsbFirst
  readlenBias := 1
  crc7CheckWidth := 120
  crc7Poly := 0x09
  crc16Poly := 0x1021
  busyWritePolicy := .drop
  uqIdlePolicy := .hold
  doneOnTimeout := false
  dataWidth := 4
  resetHost := .zero
  resetFramer := .zero

/-! The environment. -/

/-- What HOST, DATA_SRC and DATA_SINK present in one control tick: at most one access (R140), the byte
of the data-in stream if `di_valid`, and `do_ready` (R44). -/
structure CtlIn where
  host    : Option HostAccess
  di      : Option Byte
  doReady : Bool
  deriving DecidableEq, Repr, Inhabited

/-- What DATAPATH does in one bus tick in which it owns the head frame (R262, R263). -/
inductive DpAct where
  /-- It waits: no push, no pop. -/
  | wait
  /-- It delivers one byte it assembled from the data lines (R262 (a)). -/
  | deliver (b : Byte)
  /-- It reports the data timeout of a read block (R262 (b), R264). -/
  | timeout
  /-- It takes the byte of a write block and pops the frame (R263). -/
  | take
  /-- It pushes the acknowledgement of a written block with status `s`, and pops the frame in the same
  tick iff `pop` (R263: "no later than the tick in which it pops the frame"). -/
  | ack (s : BitVec 4) (pop : Bool)
  deriving DecidableEq, Repr, Inhabited

/-- What CARD and DATAPATH present in one bus tick (R45): the command line as the card leaves it, what
DATAPATH does if it owns the head, and how it drives the SD clock and the data lines meanwhile (R265).
`dpDat` is none when DATAPATH leaves `dat_oe` at 0, and else the value of `dat_o`, whose bit `i` is line `i`;
bits from `DATA_WIDTH` on are no lines of the block. -/
structure BusIn where
  cmdI    : Bool
  dp      : DpAct
  dpClkEn : Bool
  dpDat   : Option Nat
  deriving DecidableEq, Repr, Inhabited

/-- The two crossing queues (R320). -/
inductive QueueName where
  | downq
  | upq
  deriving DecidableEq, Repr, Inhabited

/-- What happens next (R7): a tick of one of the two contexts, in any interleaving (D29); a step of the
crossing lag (R326); or reset, which is asserted from outside the block (R381). -/
inductive Event where
  | control (i : CtlIn)
  | bus (i : BusIn)
  | syncVis (q : QueueName)
  | syncCred (q : QueueName)
  | reset
  deriving DecidableEq, Repr, Inhabited

/-- FREE VALUE. The environment's event number `n` where the state lists none: which context ticks, and
with what inputs (R51, U13). It has no body, so nothing can be proved of its value; see log entry 2. -/
opaque Config.freeEvent (n : Nat) : Event

end Sys2Proof
end

