-- ==== Sys2Proof/Syntax.lean ====
section
/-! DEFINITION. The 32 operations (R111), one constructor per row of spec/opcode_table.json, in the
table's order. Operands are what the encoding leaves free. -/

namespace Sys2Proof

/-- The operations of the block (R111): family HOST (`wr…`, `rd…`), family FD (`fd…`, frames from the
orchestrator to the framer), family FU (`fu…`, frames from the framer to the orchestrator).

`value` is the write data (R141). `data` and `last` are the frame's payload and marker (R90). `low` is
`ctrl[1:0]` of a configuration frame, which the latch ignores (R224). `res` is `ctrl[7:5]` of an up
frame, which the orchestrator ignores (R182). -/
inductive Instr where
  | wrArgument    (value : BitVec 32)
  | wrCommand     (value : BitVec 32)
  | wrCmdtimeout  (value : BitVec 32)
  | wrDatatimeout (value : BitVec 32)
  | wrVoltage     (value : BitVec 8)
  | wrBlocksize   (value : BitVec 16)
  | wrBlockcount  (value : BitVec 16)
  | rdResponse
  | rdCmdevt
  | rdDataevt
  | fdCmdRd  (data : Byte) (last : Bool)
  | fdDataRd (data : Byte) (last : Bool)
  | fdCmdWr  (data : Byte) (last : Bool)
  | fdDataWr (data : Byte) (last : Bool)
  | fdCfgTc0 (low : BitVec 2) (data : Byte) (last : Bool)
  | fdCfgTc1 (low : BitVec 2) (data : Byte) (last : Bool)
  | fdCfgTc2 (low : BitVec 2) (data : Byte) (last : Bool)
  | fdCfgTc3 (low : BitVec 2) (data : Byte) (last : Bool)
  | fdCfgTd0 (low : BitVec 2) (data : Byte) (last : Bool)
  | fdCfgTd1 (low : BitVec 2) (data : Byte) (last : Bool)
  | fdCfgTd2 (low : BitVec 2) (data : Byte) (last : Bool)
  | fdCfgTd3 (low : BitVec 2) (data : Byte) (last : Bool)
  | fdCfgBs0 (low : BitVec 2) (data : Byte) (last : Bool)
  | fdCfgBs1 (low : BitVec 2) (data : Byte) (last : Bool)
  | fdCfgV   (low : BitVec 2) (data : Byte) (last : Bool)
  | fuCmdOk        (res : BitVec 3) (data : Byte) (last : Bool)
  | fuDataOk       (res : BitVec 3) (data : Byte) (last : Bool)
  | fuCmdTimeout   (res : BitVec 3) (data : Byte) (last : Bool)
  | fuDataTimeout  (res : BitVec 3) (data : Byte) (last : Bool)
  | fuDataAccepted (res : BitVec 3) (data : Byte) (last : Bool)
  | fuDataCrcerr   (res : BitVec 3) (data : Byte) (last : Bool)
  | fuDataWrerr    (res : BitVec 3) (data : Byte) (last : Bool)
  deriving DecidableEq, Repr

end Sys2Proof
end

