-- ==== Sys2Proof/Decode.lean ====
section
/-! DEFINITION. Formats and fields (30_encoding.md): the tags of down and up frames, the decoder of each
port, total and rejecting by name, and the encoder. Below them the host's reading of a table word. -/

namespace Sys2Proof

/-- The channel of a frame (R94). -/
inductive Channel where
  | cmd
  | data
  deriving DecidableEq, Repr

/-- The direction of a down frame (R94). -/
inductive Direction where
  | read
  | write
  deriving DecidableEq, Repr

/-- The named statuses of an up frame (R98). -/
inductive Status where
  | ok
  | timeout
  | dataAccepted
  | crcError
  | writeError
  deriving DecidableEq, Repr

/-- `CMD = 0`, `DATA = 1` (R94). -/
def Channel.bit : Channel → BitVec 1
  | .cmd => 0
  | .data => 1

/-- `READ = 0`, `WRITE = 1` (R94). -/
def Direction.bit : Direction → BitVec 1
  | .read => 0
  | .write => 1

/-- The status values (R98). -/
def Status.code : Status → BitVec 4
  | .ok => 0
  | .timeout => 1
  | .dataAccepted => 0b010
  | .crcError => 0b101
  | .writeError => 0b110

/-- The tag of a down frame: `{mode[5:0], dir, ch}` (R93), the two low bits given as they stand. -/
def downTag (mode : BitVec 6) (low : BitVec 2) : Byte := mode ++ low

/-- `tag(ch, dir, mode)` (R93). -/
def tag (e : ModeEncoding) (ch : Channel) (dir : Direction) (m : Mode) : Byte :=
  downTag (e.code m) (dir.bit ++ ch.bit)

/-- The tag of an up frame with the bits `[7:5]` given: `{res, status[3:0], ch}` (R96). -/
def upTag (res : BitVec 3) (status : BitVec 4) (ch : Channel) : Byte := res ++ status ++ ch.bit

/-- `utag(ch, status) = {3'b000, status[3:0], ch}` (R97). -/
def utag (ch : Channel) (status : BitVec 4) : Byte := upTag 0 status ch

/-- The mode field of a down frame, `ctrl[7:2]` (R92). -/
def Frame.modeBits (f : Frame) : BitVec 6 := f.ctrl.extractLsb' 2 6

/-- `ctrl[1:0]` of a down frame, `{direction, channel}` (R92). -/
def Frame.lowBits (f : Frame) : BitVec 2 := f.ctrl.extractLsb' 0 2

/-- The status of an up frame, `ctrl[4:1]`, compared whole (R96, R182). -/
def Frame.status (f : Frame) : BitVec 4 := f.ctrl.extractLsb' 1 4

/-- `ctrl[7:5]` of an up frame, not used (R182). -/
def Frame.resBits (f : Frame) : BitVec 3 := f.ctrl.extractLsb' 5 3

/-- `ctrl[0]` of an up frame, the channel (R96). -/
def Frame.channelBit (f : Frame) : BitVec 1 := f.ctrl.extractLsb' 0 1

/-- Why an access on the host port is no operation. -/
inductive HostError where
  /-- A host read of a write-only register or a host write of a read-only one (R153). -/
  | notAnOperation (we : Bool) (id : BitVec 4)
  /-- An id that names no register of R21. -/
  | noSuchRegister (id : BitVec 4)
  deriving DecidableEq, Repr

/-- Why a frame is no operation of the map of R111. -/
inductive FrameError where
  /-- A down frame of a mode that `ModeEncoding` does not name (R121). -/
  | reservedMode (mode : BitVec 6)
  /-- An up frame whose status and channel are no row of the operation map (R111, R122). -/
  | noUpOperation (status : BitVec 4) (channel : BitVec 1)
  deriving DecidableEq, Repr

/-- Why a word of a port is no operation. -/
inductive DecodeError where
  | host (e : HostError)
  | frame (e : FrameError)
  deriving DecidableEq, Repr

/-- The host port: the register ids of R21 with the access of each (R111, R153); the write data is
truncated to the register's width (R141). -/
def decodeHost (a : HostAccess) : Except HostError Instr :=
  match a.we, a.id.toNat with
  | true, 0 => .ok (.wrArgument a.value)
  | true, 1 => .ok (.wrCommand a.value)
  | true, 3 => .ok (.wrCmdtimeout a.value)
  | true, 4 => .ok (.wrDatatimeout a.value)
  | true, 5 => .ok (.wrVoltage (a.value.setWidth 8))
  | true, 6 => .ok (.wrBlocksize (a.value.setWidth 16))
  | true, 7 => .ok (.wrBlockcount (a.value.setWidth 16))
  | false, 2 => .ok .rdResponse
  | false, 8 => .ok .rdCmdevt
  | false, 9 => .ok .rdDataevt
  | we, n => if n ≤ 9 then .error (.notAnOperation we a.id) else .error (.noSuchRegister a.id)

/-- Decoding a down frame (R112): `ctrl[7:2]` first; a frame whose mode is not XFER is a configuration
frame whatever `ctrl[1:0]` is; for XFER the channel, then the direction. -/
def decodeDown (c : Config) (f : Frame) : Except FrameError Instr :=
  match c.modes.mode? f.modeBits with
  | some .tc0 => .ok (.fdCfgTc0 f.lowBits f.data f.last)
  | some .tc1 => .ok (.fdCfgTc1 f.lowBits f.data f.last)
  | some .tc2 => .ok (.fdCfgTc2 f.lowBits f.data f.last)
  | some .tc3 => .ok (.fdCfgTc3 f.lowBits f.data f.last)
  | some .td0 => .ok (.fdCfgTd0 f.lowBits f.data f.last)
  | some .td1 => .ok (.fdCfgTd1 f.lowBits f.data f.last)
  | some .td2 => .ok (.fdCfgTd2 f.lowBits f.data f.last)
  | some .td3 => .ok (.fdCfgTd3 f.lowBits f.data f.last)
  | some .bs0 => .ok (.fdCfgBs0 f.lowBits f.data f.last)
  | some .bs1 => .ok (.fdCfgBs1 f.lowBits f.data f.last)
  | some .volt => .ok (.fdCfgV f.lowBits f.data f.last)
  | some .xfer =>
    match f.ctrl.getLsbD 0, f.ctrl.getLsbD 1 with
    | false, false => .ok (.fdCmdRd f.data f.last)
    | true, false => .ok (.fdDataRd f.data f.last)
    | false, true => .ok (.fdCmdWr f.data f.last)
    | true, true => .ok (.fdDataWr f.data f.last)
  | none => .error (.reservedMode f.modeBits)

/-- The operation map of up frames (R111): channel and status; `ctrl[7:5]`, `data` and `last` select
nothing. -/
def decodeUp (f : Frame) : Except FrameError Instr :=
  match f.ctrl.getLsbD 0, f.status.toNat with
  | false, 0 => .ok (.fuCmdOk f.resBits f.data f.last)
  | true, 0 => .ok (.fuDataOk f.resBits f.data f.last)
  | false, 1 => .ok (.fuCmdTimeout f.resBits f.data f.last)
  | true, 1 => .ok (.fuDataTimeout f.resBits f.data f.last)
  | true, 2 => .ok (.fuDataAccepted f.resBits f.data f.last)
  | true, 5 => .ok (.fuDataCrcerr f.resBits f.data f.last)
  | true, 6 => .ok (.fuDataWrerr f.resBits f.data f.last)
  | _, _ => .error (.noUpOperation f.status f.channelBit)

/-- The decoder: each port reads its own words. -/
def decode (c : Config) : PortWord → Except DecodeError Instr
  | .host a => (decodeHost a).mapError .host
  | .down f => (decodeDown c f).mapError .frame
  | .up f => (decodeUp f).mapError .frame

/-! The encoder, from the same tables. -/

/-- An XFER frame on its way down (R92, R94). -/
def xferFrame (c : Config) (ch : Channel) (dir : Direction) (data : Byte) (last : Bool) : Frame :=
  { data := data, ctrl := tag c.modes ch dir .xfer, last := last }

/-- A configuration frame (R108). -/
def cfgFrame (c : Config) (m : Mode) (low : BitVec 2) (data : Byte) (last : Bool) : Frame :=
  { data := data, ctrl := downTag (c.modes.code m) low, last := last }

/-- A frame on its way up (R96). -/
def upFrame (res : BitVec 3) (st : Status) (ch : Channel) (data : Byte) (last : Bool) : Frame :=
  { data := data, ctrl := upTag res st.code ch, last := last }

/-- The word of an operation, on the port that carries it. -/
def encode (c : Config) : Instr → PortWord
  | .wrArgument v => .host { we := true, id := 0, value := v }
  | .wrCommand v => .host { we := true, id := 1, value := v }
  | .wrCmdtimeout v => .host { we := true, id := 3, value := v }
  | .wrDatatimeout v => .host { we := true, id := 4, value := v }
  | .wrVoltage v => .host { we := true, id := 5, value := v.setWidth 32 }
  | .wrBlocksize v => .host { we := true, id := 6, value := v.setWidth 32 }
  | .wrBlockcount v => .host { we := true, id := 7, value := v.setWidth 32 }
  | .rdResponse => .host { we := false, id := 2, value := 0 }
  | .rdCmdevt => .host { we := false, id := 8, value := 0 }
  | .rdDataevt => .host { we := false, id := 9, value := 0 }
  | .fdCmdRd d l => .down (xferFrame c .cmd .read d l)
  | .fdDataRd d l => .down (xferFrame c .data .read d l)
  | .fdCmdWr d l => .down (xferFrame c .cmd .write d l)
  | .fdDataWr d l => .down (xferFrame c .data .write d l)
  | .fdCfgTc0 w d l => .down (cfgFrame c .tc0 w d l)
  | .fdCfgTc1 w d l => .down (cfgFrame c .tc1 w d l)
  | .fdCfgTc2 w d l => .down (cfgFrame c .tc2 w d l)
  | .fdCfgTc3 w d l => .down (cfgFrame c .tc3 w d l)
  | .fdCfgTd0 w d l => .down (cfgFrame c .td0 w d l)
  | .fdCfgTd1 w d l => .down (cfgFrame c .td1 w d l)
  | .fdCfgTd2 w d l => .down (cfgFrame c .td2 w d l)
  | .fdCfgTd3 w d l => .down (cfgFrame c .td3 w d l)
  | .fdCfgBs0 w d l => .down (cfgFrame c .bs0 w d l)
  | .fdCfgBs1 w d l => .down (cfgFrame c .bs1 w d l)
  | .fdCfgV w d l => .down (cfgFrame c .volt w d l)
  | .fuCmdOk r d l => .up (upFrame r .ok .cmd d l)
  | .fuDataOk r d l => .up (upFrame r .ok .data d l)
  | .fuCmdTimeout r d l => .up (upFrame r .timeout .cmd d l)
  | .fuDataTimeout r d l => .up (upFrame r .timeout .data d l)
  | .fuDataAccepted r d l => .up (upFrame r .dataAccepted .data d l)
  | .fuDataCrcerr r d l => .up (upFrame r .crcError .data d l)
  | .fuDataWrerr r d l => .up (upFrame r .writeError .data d l)

/-! The host's reading of a table word. The table numbers a word without its port. -/

/-- The tags of the three acknowledgements, `05`, `0B`, `0D` (R111). As down tags they are configuration
modes with low bits that the orchestrator never emits (R108). -/
def isAckTag (ctrl : Byte) : Bool :=
  ctrl == 0x05 || ctrl == 0x0B || ctrl == 0x0D

/-- The port of a bare table word of `nbits` bits: one byte is a host access with its write data 0; a
longer word is a frame. A number that both frame families have in their tables is read as the down
frame, but for the acknowledgement tags; a number that is no down frame is read as an up frame.
DESIGN CHOICE, log entry 3. -/
def tableWordPort (nbits w : Nat) : Option PortWord :=
  if nbits ≤ 8 then
    if w < 32 then
      some (.host { we := w.testBit 4, id := BitVec.ofNat 4 w, value := 0 })
    else none
  else if w < 2 ^ 17 then
    let f := Frame.ofWord (BitVec.ofNat 17 w)
    if isAckTag f.ctrl then some (.up f)
    else match decodeDown .default f with
      | .ok _ => some (.down f)
      | .error _ => some (.up f)
  else none

/-- The operation the decoder reads from a table word (see `tableWordPort`). -/
def decodeTableWord (nbits w : Nat) : Option Instr :=
  match tableWordPort nbits w with
  | some p => (decode .default p).toOption
  | none => none

end Sys2Proof
end

