-- ==== Sys2Proof/Machine/State.lean ====
section
/-! DEFINITION. The state of the block (10_state.md), as plain data, with the reasons a step can stop and
the state after reset. The registers of the control side come first, then the queues, the bus side, what
the ports show, and the model's own fields. -/

namespace Sys2Proof.Machine

/-- Why a step stops with a fault. Each is a use that the spec leaves without a meaning and that no run
from reset reaches (`Safety.Inv`). Safe: the block has no such behaviour to claim about. -/
inductive Fault where
  /-- A frame was to be read at the head of a queue, or popped, that shows its consumer none: "`QHead(Q)`
  is defined only when `QValid(Q)`" (R12, R323). Raised by `popDown`, `popUp` and the writer. Safe. -/
  | headUndefined
  /-- The byte index of a streamed unit is past its last byte, so the frame to offer is not defined (R37,
  R172, R109). Raised by `streamField` and `sendCommand`. Safe. -/
  | positionOutOfRange
  /-- The writer and the reader are both out of IDLE; the pads of such a tick are not defined (R222, R257).
  Raised by `machinesTick`. Safe. -/
  | exclusionBroken
  deriving DecidableEq, Repr

/-- Why a step is refused. Safe: the model stops where the spec gives the block no behaviour. -/
inductive Refusal where
  /-- An operation that has no meaning yet. Raised by `exec` alone. Safe. -/
  | notModelled (mnemonic : String)
  /-- A `command` write in IDLE whose kind or direction is 3: "A model refuses the command write" (R123,
  U4). Raised by `issueCommand`. Safe. -/
  | reservedCommandField
  /-- A `command` write in IDLE that starts a data transfer while `blocksize = 0`: "A model refuses a data
  transfer started with `blocksize = 0`" (R300, U3). Raised by `issueCommand`. Safe. -/
  | zeroBlocksizeTransfer
  /-- A host read of a write-only register or a host write of a read-only one: "not operations of this
  hardware" (R153, U6). Raised by the control tick. Safe. -/
  | notAnOperation (we : Bool) (id : BitVec 4)
  /-- A host access with an id that names no register of R21. Raised by the control tick. Safe. -/
  | noSuchRegister (id : BitVec 4)
  deriving DecidableEq, Repr

/-- The outcome of a step of this machine. -/
abbrev Result (σ : Type) := Host.Outcome σ Fault Refusal

/-- Go on from a next state; a fault or a refusal stays. -/
def andThen {α β : Type} (o : Result α) (f : α → Result β) : Result β :=
  match o with
  | .next s => f s
  | .fault r => .fault r
  | .refused r => .refused r

/-! Control side. -/

/-- The CommandDescriptor latch `d_arg`, `d_idx`, `d_kind`, `d_dir` (R30). -/
structure Descriptor where
  arg  : BitVec 32
  idx  : BitVec 6
  kind : BitVec 2
  dir  : BitVec 2
  deriving DecidableEq, Repr

/-- `cmd_done`, `cmd_timeout`, `cmd_crc_en`, `cmd_crc_check` (R32). -/
structure CmdFlags where
  done     : Bool
  timeout  : Bool
  crcEn    : Bool
  crcCheck : BitVec 7
  deriving DecidableEq, Repr

/-- `data_done`, `data_timeout`, `data_werr`, `data_crcerr` (R33). -/
structure DataFlags where
  done    : Bool
  timeout : Bool
  werr    : Bool
  crcerr  : Bool
  deriving DecidableEq, Repr

/-- `ostate`, the orchestrator state (R36). -/
inductive OState where
  | idle
  | cfgTimeoutData
  | cfgTimeoutCmd
  | cfgBlksize
  | cfgVoltage
  | sendCmd
  | recvResp
  | recvData
  | sendData
  deriving DecidableEq, Repr

/-- The phase of a CRC16 engine (R40, R41). -/
inductive CrcPhase where
  | payload
  | crcHi
  | crcLo
  deriving DecidableEq, Repr

/-- The CRC16 generator `g_crc`, `g_cnt`, `g_phase` (R40). -/
structure Generator where
  crc   : BitVec 16
  cnt   : BitVec 16
  phase : CrcPhase
  deriving DecidableEq, Repr

/-- The CRC16 checker `k_crc`, `k_cnt`, `k_phase`, `k_hi` (R41). -/
structure Checker where
  crc   : BitVec 16
  cnt   : BitVec 16
  phase : CrcPhase
  hi    : Byte
  deriving DecidableEq, Repr

/-- The reset state of the generator (R294). -/
def Generator.cleared : Generator := { crc := 0, cnt := 0, phase := .payload }

/-- The reset state of the checker (R294). -/
def Checker.cleared : Checker := { crc := 0, cnt := 0, phase := .payload, hi := 0 }

/-- No command flag set. -/
def CmdFlags.clear : CmdFlags := { done := false, timeout := false, crcEn := false, crcCheck := 0 }

/-- No data flag set. -/
def DataFlags.clear : DataFlags := { done := false, timeout := false, werr := false, crcerr := false }

/-- A register whose write triggers the orchestrator (R72): `command`, or a configuration field. -/
inductive Trigger where
  | command
  | cmdtimeout
  | datatimeout
  | voltage
  | blocksize
  deriving DecidableEq, Repr

/-! The crossing queues. -/

/-- One crossing queue: its frames, oldest first, how many of them the consumer sees, and how many free
places the producer knows of (R321). -/
structure Queue where
  items : List Frame
  vis   : Nat
  cred  : Nat
  deriving DecidableEq, Repr

/-- The queue after reset (R330). -/
def Queue.empty : Queue := { items := [], vis := 0, cred := 2 }

/-! Bus side. -/

/-- `wstate` (R47). -/
inductive WState where
  | idle
  | init
  | cmdWrite
  | cmdClk8
  deriving DecidableEq, Repr

/-- The command writer `wstate`, `w_init_done`, `w_cnt`, `w_bit` (R47). -/
structure Writer where
  st       : WState
  initDone : Bool
  cnt      : BitVec 7
  bit      : BitVec 3
  deriving DecidableEq, Repr

/-- `rstate` (R48). -/
inductive RState where
  | idle
  | cmdReadstart
  | cmdRead
  | cmdClk8
  | timeout
  deriving DecidableEq, Repr

/-- The command reader `rstate`, `r_toread`, `r_last`, `r_cread`, `r_timeout`, `r_cnt` (R48). -/
structure Reader where
  st      : RState
  toread  : Byte
  last    : Bool
  cread   : Byte
  timeout : BitVec 32
  cnt     : BitVec 3
  deriving DecidableEq, Repr

/-- `sstate` (R49). -/
inductive SState where
  | idle
  | readstart
  | read
  deriving DecidableEq, Repr

/-- The bit sampler `sstate`, `s_shift`, `s_cnt` (R49). -/
structure Sampler where
  st    : SState
  shift : Byte
  cnt   : BitVec 3
  deriving DecidableEq, Repr

/-- The sampler while it is not enabled (R250), and after reset. -/
def Sampler.off : Sampler := { st := .idle, shift := 0, cnt := 0 }

/-- The writer after reset (R53). -/
def Writer.atReset : Writer := { st := .idle, initDone := false, cnt := 0, bit := 0 }

/-- The reader after reset (R53). -/
def Reader.atReset : Reader :=
  { st := .idle, toread := 0, last := false, cread := 0, timeout := 0, cnt := 0 }

/-- What the contract of DATAPATH counts for the frame it owns (R262, R263): the up frames it has pushed
for a read request, and whether it has pushed the acknowledgement of a written block. The agent's own
state is unspecified (R7); these two are the contract's, see log entry 6. -/
structure Datapath where
  sent  : Nat
  acked : Bool
  deriving DecidableEq, Repr

/-- DATAPATH owns no frame (R381). -/
def Datapath.free : Datapath := { sent := 0, acked := false }

/-! What the ports show. -/

/-- The pads of a bus tick (R45). `cmd` is `cmd_o` when the block drives the command line (`cmd_oe = 1`)
and none when it does not; `dat` likewise for `dat_o` and `dat_oe`, the `DATA_WIDTH` lines from line 0 on
(`Inv.lines`). -/
structure Pads where
  clkEn      : Bool
  cmd        : Option Bool
  dat        : Option (List Bool)
  voltageSel : Bool
  deriving DecidableEq, Repr

/-- `cmd_oe` (R45). -/
def Pads.cmdOe (p : Pads) : Bool := p.cmd.isSome

/-- `dat_oe` (R45). -/
def Pads.datOe (p : Pads) : Bool := p.dat.isSome

/-- What the control side shows in a control tick: the read data of a host read (R149 to R151), `di_ready`
(R44), and the byte with its `do_last` when `do_valid` (R295). -/
structure CtlOut where
  rdata   : Option (BitVec 120)
  diReady : Bool
  dout    : Option (Byte × Bool)
  deriving DecidableEq, Repr

/-- A control tick that shows nothing. -/
def CtlOut.quiet : CtlOut := { rdata := none, diReady := false, dout := none }

/-! The state. -/

/-- The whole state. Up to `datapath` every field is the spec's (R20 to R49, R321) or the contract's;
`pads` and `out` hold what the last tick of each context put on its ports; `cin` and `bin` the inputs of
that tick; `env` the events the environment still has listed, next first; `time` the number of steps
taken, which indexes the free events; `cfg` the parameters, which no step changes. -/
structure State where
  cfg      : Config
  host     : HostRegs
  pending  : List Trigger
  desc     : Descriptor
  response : BitVec 120
  cmdf     : CmdFlags
  dataf    : DataFlags
  ostate   : OState
  pos      : BitVec 3
  reqSent  : Bool
  blkcnt   : BitVec 16
  gen      : Generator
  chk      : Checker
  downq    : Queue
  upq      : Queue
  fcfg     : FramerRegs
  writer   : Writer
  reader   : Reader
  sampler  : Sampler
  datapath : Datapath
  pads     : Pads
  out      : CtlOut
  cin      : CtlIn
  bin      : BusIn
  env      : List Event
  time     : Nat
  deriving DecidableEq, Repr

/-- The state after reset with given parameters, listed events and step count (R53, R380). The pads show
the safe idle state with the framer's voltage mode. -/
def State.resetWith (c : Config) (env : List Event) (time : Nat) : State where
  cfg := c
  host := c.resetHost
  pending := []
  desc := { arg := 0, idx := 0, kind := 0, dir := 0 }
  response := 0
  cmdf := .clear
  dataf := .clear
  ostate := .idle
  pos := 0
  reqSent := false
  blkcnt := 0
  gen := .cleared
  chk := .cleared
  downq := .empty
  upq := .empty
  fcfg := c.resetFramer
  writer := .atReset
  reader := .atReset
  sampler := .off
  datapath := .free
  pads := { clkEn := false, cmd := some true, dat := none, voltageSel := c.resetFramer.voltage }
  out := .quiet
  cin := { host := none, di := none, doReady := false }
  bin := { cmdI := true, dp := .wait, dpClkEn := false, dpDat := none }
  env := env
  time := time

/-- The machine right after reset (R53), with the default parameters (R9) and no event listed. -/
def State.reset : State := State.resetWith .default [] 0

end Sys2Proof.Machine
end

