-- ==== Sys2Proof/Machine/Operands.lean ====
section
/-! DEFINITION. Operand assembly: bytes of a configuration field (R66, R108), the six command bytes
(R109), the read-length byte (R107), the fields of the `command` register (R99), with the CRC7 and CRC16
functions of 43_crc_engines.md. -/

namespace Sys2Proof.Machine

/-! Bits and bytes. -/

/-- The low `n` bits of `v`, bit `n-1` first. -/
def bitsMsbFirst {w : Nat} (v : BitVec w) : Nat → List Bool
  | 0 => []
  | n + 1 => v.getLsbD n :: bitsMsbFirst v n

/-- Byte `k` of `v`: bits `[8k+7:8k]`. -/
def byteAt {w : Nat} (v : BitVec w) (k : Nat) : Byte := v.extractLsb' (8 * k) 8

/-- `v` with bits `[8k+7:8k]` replaced by `b`; "the other bytes of the field keep their values" (R224). -/
def setByteAt {w : Nat} (v : BitVec w) (k : Nat) (b : Byte) : BitVec w :=
  (v &&& ~~~((0xFF#8).setWidth w <<< (8 * k))) ||| (b.setWidth w <<< (8 * k))

/-- Which byte of a field of `n` bytes offset `k` names (R66, `CfgByteOrder`). -/
def byteIndex (o : CfgByteOrder) (n k : Nat) : Nat :=
  match o with
  | .lsbFirst => k
  | .msbFirst => n - 1 - k

/-! CRC7. -/

/-- One bit of `crc7` (R281). -/
def crc7Step (poly : BitVec 7) (c : BitVec 7) (b : Bool) : BitVec 7 :=
  if c.getLsbD 6 != b then (c <<< 1) ^^^ poly else c <<< 1

/-- `crc7` of a sequence of bits, first bit first, from 0 (R281). -/
def crc7 (poly : BitVec 7) (bits : List Bool) : BitVec 7 :=
  bits.foldl (crc7Step poly) 0

/-- `V = {1'b0, 1'b1, idx[5:0], arg[31:0]}`, the input of the CRC7 generator (R283). -/
def tokenHead (idx : BitVec 6) (arg : BitVec 32) : BitVec 40 := 0#1 ++ 1#1 ++ idx ++ arg

/-- The generator `crc7_cmd(idx, arg)` (R283). -/
def crc7Cmd (c : Config) (idx : BitVec 6) (arg : BitVec 32) : BitVec 7 :=
  crc7 c.crc7Poly (bitsMsbFirst (tokenHead idx arg) 40)

/-- The checker's function `crc7_resp(r)` (R286). -/
def crc7Resp (c : Config) (r : BitVec 120) : BitVec 7 :=
  crc7 c.crc7Poly (bitsMsbFirst r c.crc7CheckWidth)

/-! CRC16. -/

/-- One bit of `crc16_update` (R291). -/
def crc16Step (poly : BitVec 16) (c : BitVec 16) (b : Bool) : BitVec 16 :=
  if c.getLsbD 15 != b then (c <<< 1) ^^^ poly else c <<< 1

/-- `crc16_update(c, byte)` (R291). -/
def crc16Update (poly : BitVec 16) (c : BitVec 16) (b : Byte) : BitVec 16 :=
  (bitsMsbFirst b 8).foldl (crc16Step poly) c

/-- `crc16(bytes)` (R291). -/
def crc16 (poly : BitVec 16) (bytes : List Byte) : BitVec 16 :=
  bytes.foldl (crc16Update poly) 0

/-! The `command` register (R99). -/

/-- `command[1:0]`, the response kind: NONE 0, SHORT 1, LONG 2 (R100). -/
def cmdKind (v : BitVec 32) : BitVec 2 := v.extractLsb' 0 2

/-- `command[6:5]`, the data direction: NONE 0, READ 1, WRITE 2 (R101). -/
def cmdDir (v : BitVec 32) : BitVec 2 := v.extractLsb' 5 2

/-- `command[13:8]`, the command index (R99). -/
def cmdIdx (v : BitVec 32) : BitVec 6 := v.extractLsb' 8 6

/-- Response kinds (R100). -/
def kindNone : BitVec 2 := 0
/-- Response kinds (R100). -/
def kindShort : BitVec 2 := 1
/-- Response kinds (R100). -/
def kindLong : BitVec 2 := 2
/-- Data directions (R101). -/
def dirNone : BitVec 2 := 0
/-- Data directions (R101). -/
def dirRead : BitVec 2 := 1
/-- Data directions (R101). -/
def dirWrite : BitVec 2 := 2

/-- `cmdword(idx, kind, dir) = kind + 32*dir + 256*idx` (R132). -/
def cmdWord (idx : BitVec 6) (kind dir : BitVec 2) : BitVec 32 :=
  kind.setWidth 32 + 32#32 * dir.setWidth 32 + 256#32 * idx.setWidth 32

/-- `cmdbyte(p)` (R109); there is no byte after the sixth. -/
def cmdByte (c : Config) (d : Descriptor) (p : Nat) : Option Byte :=
  match p with
  | 0 => some (0b01#2 ++ d.idx)
  | 1 => some (byteAt d.arg 3)
  | 2 => some (byteAt d.arg 2)
  | 3 => some (byteAt d.arg 1)
  | 4 => some (byteAt d.arg 0)
  | 5 => some (crc7Cmd c d.idx d.arg ++ 1#1)
  | _ => none

/-! Requests. -/

/-- The number of response bytes: 6 for SHORT, else 17 (R180). -/
def responseLength (kind : BitVec 2) : BitVec 8 := if kind = kindShort then 6 else 17

/-- The payload of the response request: the length less `READLEN_BIAS` (R107). -/
def readLength (c : Config) (kind : BitVec 2) : Byte := responseLength kind - c.readlenBias

/-! Configuration fields. -/

/-- The fields a configuration state streams (R173 to R176). -/
inductive CfgField where
  | cmdtimeout
  | datatimeout
  | blocksize
  | voltage
  deriving DecidableEq, Repr

/-- The modes of a field's bytes, offset 0 first (R173 to R176). -/
def CfgField.modes : CfgField → List Mode
  | .cmdtimeout => [.tc0, .tc1, .tc2, .tc3]
  | .datatimeout => [.td0, .td1, .td2, .td3]
  | .blocksize => [.bs0, .bs1]
  | .voltage => [.volt]

/-- The field's host register (R173 to R176), as wide as the widest. -/
def CfgField.value (h : HostRegs) : CfgField → BitVec 32
  | .cmdtimeout => h.cmdtimeout
  | .datatimeout => h.datatimeout
  | .blocksize => h.blocksize.setWidth 32
  | .voltage => h.voltage.setWidth 32

/-- The configuration state that streams the field (R144 to R147). -/
def CfgField.state : CfgField → OState
  | .cmdtimeout => .cfgTimeoutCmd
  | .datatimeout => .cfgTimeoutData
  | .blocksize => .cfgBlksize
  | .voltage => .cfgVoltage

/-- The frame of byte `k` of a field (R108, R172); none past the last byte. -/
def fieldFrame (c : Config) (h : HostRegs) (f : CfgField) (k : Nat) : Option Frame :=
  match f.modes[k]? with
  | none => none
  | some m => some {
      data := byteAt (f.value h) (byteIndex c.byteOrder f.modes.length k)
      ctrl := tag c.modes .cmd .write m
      last := decide (k + 1 = f.modes.length) }

/-- The Configuration copy after the latch took byte `b` tagged `m` (R224 to R235). -/
def latchByte (o : CfgByteOrder) (m : Mode) (b : Byte) (r : FramerRegs) : FramerRegs :=
  match m with
  | .xfer => r
  | .tc0 => { r with cmdtimeout := setByteAt r.cmdtimeout (byteIndex o 4 0) b }
  | .tc1 => { r with cmdtimeout := setByteAt r.cmdtimeout (byteIndex o 4 1) b }
  | .tc2 => { r with cmdtimeout := setByteAt r.cmdtimeout (byteIndex o 4 2) b }
  | .tc3 => { r with cmdtimeout := setByteAt r.cmdtimeout (byteIndex o 4 3) b }
  | .td0 => { r with datatimeout := setByteAt r.datatimeout (byteIndex o 4 0) b }
  | .td1 => { r with datatimeout := setByteAt r.datatimeout (byteIndex o 4 1) b }
  | .td2 => { r with datatimeout := setByteAt r.datatimeout (byteIndex o 4 2) b }
  | .td3 => { r with datatimeout := setByteAt r.datatimeout (byteIndex o 4 3) b }
  | .bs0 => { r with blocksize := setByteAt r.blocksize (byteIndex o 2 0) b }
  | .bs1 => { r with blocksize := setByteAt r.blocksize (byteIndex o 2 1) b }
  | .volt => { r with voltage := b.getLsbD 0 }

end Sys2Proof.Machine
end

