-- ==== Sys2Proof/Machine/Flags.lean ====
section
/-! DEFINITION. The event registers: views of the flags, with no storage of their own (R27, R28, R34). -/

namespace Sys2Proof.Machine

/-- `cmd_crcerr = cmd_crc_en AND (crc7_resp(response) != cmd_crc_check)` (R34, R287). -/
def cmdCrcerr (s : State) : Bool :=
  s.cmdf.crcEn && crc7Resp s.cfg s.response != s.cmdf.crcCheck

/-- `cmdevt = {28'b0, cmd_crcerr, cmd_timeout, 1'b0, cmd_done}` (R27, R150). -/
def cmdevt (s : State) : BitVec 32 :=
  0#28 ++ BitVec.ofBool (cmdCrcerr s) ++ BitVec.ofBool s.cmdf.timeout ++ 0#1 ++
    BitVec.ofBool s.cmdf.done

/-- `dataevt = {28'b0, data_crcerr, data_timeout, data_werr, data_done}` (R28, R151). -/
def dataevt (s : State) : BitVec 32 :=
  0#28 ++ BitVec.ofBool s.dataf.crcerr ++ BitVec.ofBool s.dataf.timeout ++
    BitVec.ofBool s.dataf.werr ++ BitVec.ofBool s.dataf.done

end Sys2Proof.Machine
end

