-- ==== Sys2Proof/Machine/Ops.lean ====
section
/-! DEFINITION. The shared operations: the crossing queues (44_cdc_queues.md), the errors (60_exceptions.md),
and the two CRC16 engines as streams (43_crc_engines.md). -/

namespace Sys2Proof.Machine

/-! The crossing queues. -/

/-- `QReady(Q) = (Q.cred > 0)` (R322). -/
def Queue.ready (q : Queue) : Bool := decide (0 < q.cred)

/-- `QValid(Q) = (Q.vis > 0)` (R323). -/
def Queue.valid (q : Queue) : Bool := decide (0 < q.vis)

/-- `QHead(Q)`, defined only when `QValid(Q)` (R323). -/
def Queue.head? (q : Queue) : Option Frame := if q.valid then q.items.head? else none

/-- `QPush(Q, f)` (R322). -/
def Queue.push (f : Frame) (q : Queue) : Queue :=
  { q with items := q.items ++ [f], cred := q.cred - 1 }

/-- `QPop(Q)` (R323). The freed place is not yet known to the producer. -/
def Queue.pop (q : Queue) : Queue :=
  { q with items := q.items.tail, vis := q.vis - 1 }

/-- `sync_vis(Q)` (R326). -/
def Queue.syncVis (q : Queue) : Queue :=
  if q.vis < q.items.length then { q with vis := q.vis + 1 } else q

/-- `sync_cred(Q)` (R326). -/
def Queue.syncCred (q : Queue) : Queue :=
  if q.cred < 2 - q.items.length then { q with cred := q.cred + 1 } else q

/-- Push into `DOWNQ`. -/
def State.pushDown (f : Frame) (s : State) : State := { s with downq := s.downq.push f }

/-- Push into `UPQ`. -/
def State.pushUp (f : Frame) (s : State) : State := { s with upq := s.upq.push f }

/-- Pop from `DOWNQ`; allowed only when `QValid(DOWNQ)` (R323). -/
def popDown (s : State) : Result State :=
  match s.downq.head? with
  | some _ => .next { s with downq := s.downq.pop }
  | none => .fault .headUndefined

/-- Pop from `UPQ`; allowed only when `QValid(UPQ)` (R323). -/
def popUp (s : State) : Result State :=
  match s.upq.head? with
  | some _ => .next { s with upq := s.upq.pop }
  | none => .fault .headUndefined

/-! The errors. -/

/-- The five errors (R340). -/
inductive ErrorKind where
  | commandTimeout
  | commandCrcError
  | dataTimeout
  | dataWriteError
  | dataCrcError
  deriving DecidableEq, Repr

/-- `raise` (R12, R340, R350): the flag of the error is latched, and for the two timeouts the orchestrator
returns to IDLE; "Nothing is saved, no mode changes, no other register is written". CommandCrcError has
no latch: its bit of `cmdevt` is formed from `response` and the snapshot (R34). With `DONE_ON_TIMEOUT` a
timeout also sets the done flag of its own register (R9). -/
def raise (e : ErrorKind) (s : State) : State :=
  match e with
  | .commandTimeout =>
    { s with
      cmdf := { s.cmdf with timeout := true, done := s.cmdf.done || s.cfg.doneOnTimeout }
      dataf := { s.dataf with done := true }
      ostate := .idle }
  | .commandCrcError => s
  | .dataTimeout =>
    { s with
      dataf := { s.dataf with timeout := true, done := s.dataf.done || s.cfg.doneOnTimeout }
      blkcnt := 0
      ostate := .idle }
  | .dataWriteError => { s with dataf := { s.dataf with werr := true } }
  | .dataCrcError => { s with dataf := { s.dataf with crcerr := true } }

/-- The return from an error (R352): a new command clears every flag and the response buffer (R143). -/
def clearErrors (s : State) : State :=
  { s with response := 0, cmdf := .clear, dataf := .clear }

/-! The CRC16 generator (R292, R293). -/

/-- `g_valid`, `g_data`, `g_last`: what the generator offers in this tick; none when `g_valid = 0`. -/
def genOffer (s : State) : Option (Byte × Bool) :=
  match s.gen.phase with
  | .payload => s.cin.di.map fun b => (b, false)
  | .crcHi => some (byteAt s.gen.crc 1, false)
  | .crcLo => some (byteAt s.gen.crc 0, true)

/-- `di_ready`: the generator takes a payload byte in this tick if one is there (R199, R292). -/
def genTakes (s : State) : Bool := s.gen.phase == .payload && s.downq.ready

/-- The generator after a transfer of byte `b` (R292, R293). The comparison is of 17 bits (R300). -/
def genAdvance (c : Config) (blocksize : BitVec 16) (b : Byte) (g : Generator) : Generator :=
  match g.phase with
  | .payload =>
    if g.cnt.toNat + 1 = blocksize.toNat then
      { crc := crc16Update c.crc16Poly g.crc b, cnt := 0, phase := .crcHi }
    else
      { crc := crc16Update c.crc16Poly g.crc b, cnt := g.cnt + 1, phase := .payload }
  | .crcHi => { g with phase := .crcLo }
  | .crcLo => { g with phase := .payload, crc := 0 }

/-! The CRC16 checker (R295 to R297). -/

/-- `k_ready` (R297). -/
def checkerReady (s : State) : Bool :=
  match s.chk.phase with
  | .payload => s.cin.doReady
  | .crcHi => true
  | .crcLo => true

/-- The checker takes byte `b` (R295, R296): payload goes on to the data-out stream, the two trailer bytes
do not; at the second a mismatch raises DataCrcError. -/
def checkerTake (b : Byte) (s : State) : State :=
  match s.chk.phase with
  | .payload =>
    let lastByte := decide (s.chk.cnt.toNat + 1 = s.host.blocksize.toNat)
    { s with
      out := { s.out with dout := some (b, lastByte) }
      chk := { s.chk with
        crc := crc16Update s.cfg.crc16Poly s.chk.crc b
        cnt := if lastByte then 0 else s.chk.cnt + 1
        phase := if lastByte then .crcHi else .payload } }
  | .crcHi => { s with chk := { s.chk with hi := b, phase := .crcLo } }
  | .crcLo =>
    let s' := if s.chk.hi ++ b = s.chk.crc then s else raise .dataCrcError s
    { s' with chk := { s.chk with phase := .payload, crc := 0 } }

end Sys2Proof.Machine
end

