-- ==== Sys2Proof/Machine/Framer.lean ====
section
/-! DEFINITION. The Bus Framer (42_bus_framer.md): command writer, command reader and bit sampler in one bus
tick, the configuration latch, the contract of DATAPATH, and the meanings of the down-frame operations
(family FD). Each meaning is one bus tick with that frame at the head of `DOWNQ`; a frame that takes many
ticks stays at the head until it is popped (D34, D35). -/

namespace Sys2Proof.Machine

/-! Pads (R222). -/

/-- The safe idle state: clock low, command line driven high. -/
def idlePads (s : State) : Pads :=
  { clkEn := false, cmd := some true, dat := none, voltageSel := s.fcfg.voltage }

/-- A clocked tick in which the block drives the command line. -/
def drivePads (s : State) (b : Bool) : Pads :=
  { clkEn := true, cmd := some b, dat := none, voltageSel := s.fcfg.voltage }

/-- A tick in which the command line is released to the card. -/
def releasePads (s : State) (clk : Bool) : Pads :=
  { clkEn := clk, cmd := none, dat := none, voltageSel := s.fcfg.voltage }

/-- A tick of the preamble: every line high (R239, D32). -/
def initPads (s : State) : Pads :=
  { clkEn := true, cmd := some true, dat := some (List.replicate s.cfg.dataWidth true),
    voltageSel := s.fcfg.voltage }

/-- The tick of a machine that is IDLE: idle pads, and the sampler, which is not enabled, resets (R250). -/
def idleTick (s : State) : State := { s with pads := idlePads s, sampler := .off }

/-! The command writer. -/

/-- Writer INIT (R239). -/
def Writer.initTick (w : Writer) : Writer :=
  if w.cnt = 79 then { st := .cmdWrite, initDone := true, cnt := 0, bit := 0 }
  else { w with cnt := w.cnt + 1 }

/-- Writer CMD_CLK8 (R241). -/
def Writer.clk8Tick (w : Writer) : Writer :=
  if w.cnt = 7 then { w with st := .idle, cnt := 0 } else { w with cnt := w.cnt + 1 }

/-- The writer after the eighth bit of a frame with marker `last` (R240). -/
def Writer.byteDone (w : Writer) (last : Bool) : Writer :=
  if last then { w with st := .cmdClk8, bit := 0, cnt := 0 } else { w with st := .idle, bit := 0 }

/-- The dispatch of R223 starts the writer (R238). -/
def Writer.start (w : Writer) : Writer :=
  if w.initDone then { w with st := .cmdWrite, bit := 0 } else { w with st := .init, cnt := 0 }

/-- The writer is out of IDLE: one tick, with the visible head of `DOWNQ` if there is one. -/
def writerTick (h : Option Frame) (s : State) : Result State :=
  let s := { s with sampler := .off }
  match s.writer.st with
  | .idle => .next (idleTick s)
  | .init => .next { s with pads := initPads s, writer := s.writer.initTick }
  | .cmdClk8 => .next { s with pads := drivePads s true, writer := s.writer.clk8Tick }
  | .cmdWrite =>
    match h with
    | none => .fault .headUndefined
    | some f =>
      let s := { s with pads := drivePads s (f.data.getLsbD (7 - s.writer.bit.toNat)) }
      if s.writer.bit = 7 then
        andThen (popDown s) fun s => .next { s with writer := s.writer.byteDone f.last }
      else .next { s with writer := { s.writer with bit := s.writer.bit + 1 } }

/-! The bit sampler. -/

/-- One enabled, clocked tick of the sampler with `cmd_i`, and the byte it completes (R251 to R253). -/
def Sampler.sample (cmdI : Bool) (x : Sampler) : Sampler × Option Byte :=
  match x.st with
  | .idle => ({ x with st := .readstart }, none)
  | .readstart => if cmdI then (x, none) else ({ st := .read, shift := 0, cnt := 1 }, none)
  | .read =>
    let nb := x.shift.extractLsb' 0 7 ++ BitVec.ofBool cmdI
    if x.cnt = 7 then ({ x with shift := nb, cnt := 0 }, some nb)
    else ({ x with shift := nb, cnt := x.cnt + 1 }, none)

/-! The command reader. -/

/-- The dispatch of R223 starts the reader with head frame `h` (R244). -/
def Reader.start (h : Frame) (r : Reader) : Reader :=
  { r with st := .cmdReadstart, toread := h.data, last := h.last, cread := 0, timeout := 0 }

/-- Reader CMD_READSTART (R245): the event is tested before the count (R355). -/
def Reader.waitTick (threshold : BitVec 32) (x : Sampler) (r : Reader) : Reader :=
  if x.st = .read then { r with st := .cmdRead }
  else if threshold ≤ r.timeout then { r with st := .timeout }
  else { r with timeout := r.timeout + 1 }

/-- Reader CMD_CLK8 (R247). -/
def Reader.clk8Tick (r : Reader) : Reader :=
  if r.cnt = 7 then { r with st := .idle, cnt := 0 } else { r with cnt := r.cnt + 1 }

/-- The byte now complete is the last one requested: `payload + READLEN_BIAS` bytes are delivered (R107,
R246). -/
def Reader.lastByte (c : Config) (r : Reader) : Bool :=
  decide (r.cread.toNat + 1 = r.toread.toNat + c.readlenBias.toNat)

/-- Reader CMD_READ, a completed byte `b` (R246): it is pushed in the same tick; with the last one the
request is popped. -/
def forwardByte (b : Byte) (s : State) : Result State :=
  let lastb := s.reader.lastByte s.cfg
  let s := s.pushUp { data := b, ctrl := utag .cmd Status.ok.code, last := lastb }
  if lastb then
    andThen (popDown s) fun s => .next { s with
      reader := if s.reader.last then { s.reader with st := .cmdClk8, cnt := 0 }
                else { s.reader with st := .idle } }
  else .next { s with reader := { s.reader with cread := s.reader.cread + 1 } }

/-- The frame that reports a command timeout (R248). -/
def timeoutReport : Frame := { data := 0, ctrl := utag .cmd Status.timeout.code, last := true }

/-- The reader is out of IDLE: one tick. CMD_READ is clocked only if `UPQ` can take a frame (R249). -/
def readerTick (s : State) : Result State :=
  match s.reader.st with
  | .idle => .next (idleTick s)
  | .cmdReadstart =>
    .next { s with
      pads := releasePads s true
      sampler := (s.sampler.sample s.bin.cmdI).1
      reader := s.reader.waitTick s.fcfg.cmdtimeout s.sampler }
  | .cmdRead =>
    if s.upq.ready then
      let x := s.sampler.sample s.bin.cmdI
      let s := { s with pads := releasePads s true, sampler := x.1 }
      match x.2 with
      | some b => forwardByte b s
      | none => .next s
    else .next { s with pads := releasePads s false }
  | .cmdClk8 =>
    .next { s with pads := drivePads s true, sampler := .off, reader := s.reader.clk8Tick }
  | .timeout =>
    let s := idleTick s
    if s.upq.ready then
      andThen (popDown (s.pushUp timeoutReport)) fun s =>
        .next { s with reader := { s.reader with st := .idle } }
    else .next s

/-! One bus tick of the machines (R256 (3) to (6)). -/

/-- The writer and the reader are both IDLE, the condition of the dispatch (R223). -/
def bothIdle (s : State) : Bool := s.writer.st == .idle && s.reader.st == .idle

/-- The machines by their states at the start of the tick, with the visible head of `DOWNQ` if there is
one. That both are out of IDLE is excluded (R257). -/
def machinesTick (h : Option Frame) (s : State) : Result State :=
  if s.writer.st = .idle then readerTick s
  else if s.reader.st = .idle then writerTick h s
  else .fault .exclusionBroken

/-- A configuration frame at the head (R224): taken in any state of the writer and the reader, which see no
head frame in that tick. The latch's writes land with theirs at the end of the tick. -/
def latchTick (m : Mode) (data : Byte) (s : State) : Result State :=
  andThen (machinesTick none s) fun s =>
  andThen (popDown s) fun s =>
  .next { s with fcfg := latchByte s.cfg.byteOrder m data s.fcfg }

/-- A frame of a reserved mode at the head: popped, nothing written (R236). -/
def discardTick (s : State) : Result State :=
  andThen (machinesTick none s) popDown

/-- An XFER frame at the head (R223): started when the writer and the reader are IDLE, else not looked at. -/
def xferTick (h : Frame) (start : State → Result State) (s : State) : Result State :=
  if bothIdle s then start s else machinesTick (some h) s

/-! DATAPATH, under the contract of R262 to R265. A choice that the contract does not allow in the tick is
no choice of DATAPATH: it waits. -/

/-- `dat_o[DATA_WIDTH-1:0]` of a value, line 0 first (R45). -/
def dataLines (c : Config) (v : Nat) : List Bool := (List.range c.dataWidth).map v.testBit

/-- The pads while DATAPATH owns the head (R265): it drives the SD clock and the data lines, and keeps the
command line driven high. DESIGN CHOICE, log entry 6: the spec does not say how many of the lines DATAPATH
uses; here it gives all `DATA_WIDTH` of them a value, which is its own choice, or leaves all undriven. -/
def datapathPads (s : State) : Pads :=
  { clkEn := s.bin.dpClkEn, cmd := some true, dat := s.bin.dpDat.map (dataLines s.cfg)
    voltageSel := s.fcfg.voltage }

/-- DATAPATH owns a read request (R262): it pushes the next byte of the block, or the TIMEOUT report, each
only when `QReady(UPQ)`, and pops the request with the last push. -/
def datapathRead (s : State) : Result State :=
  let s := { s with pads := datapathPads s, sampler := .off }
  if s.upq.ready then
    match s.bin.dp with
    | .deliver b =>
      let lastb := decide (s.fcfg.blocksize.toNat + 2 ≤ s.datapath.sent + 1)
      let s := s.pushUp { data := b, ctrl := utag .data Status.ok.code, last := lastb }
      if lastb then andThen (popDown s) fun s => .next { s with datapath := .free }
      else .next { s with datapath := { s.datapath with sent := s.datapath.sent + 1 } }
    | .timeout =>
      andThen (popDown (s.pushUp { data := 0, ctrl := utag .data Status.timeout.code, last := true }))
        fun s => .next { s with datapath := .free }
    | .wait => .next s
    | .take => .next s
    | .ack _ _ => .next s
  else .next s

/-- The acknowledgement of a written block (R263). -/
def ackFrame (st : BitVec 4) : Frame := { data := 0, ctrl := utag .data st, last := false }

/-- DATAPATH owns a byte of a write block with marker `last` (R263): it takes the byte and pops the frame;
for the last byte of a block it also pushes one acknowledgement, no later than the pop. -/
def datapathWrite (last : Bool) (s : State) : Result State :=
  let s := { s with pads := datapathPads s, sampler := .off }
  match s.bin.dp with
  | .take =>
    if !last || s.datapath.acked then andThen (popDown s) fun s => .next { s with datapath := .free }
    else .next s
  | .ack st pop =>
    if last && !s.datapath.acked && s.upq.ready then
      let s := s.pushUp (ackFrame st)
      if pop then andThen (popDown s) fun s => .next { s with datapath := .free }
      else .next { s with datapath := { s.datapath with acked := true } }
    else .next s
  | .wait => .next s
  | .deliver _ => .next s
  | .timeout => .next s

/-! The down-frame operations. -/

/-- `FD_CMD_RD` (R243 to R249). -/
def execFdCmdRd (data : Byte) (last : Bool) (s : State) : Result State :=
  let h := xferFrame s.cfg .cmd .read data last
  xferTick h (fun s => .next { idleTick s with reader := s.reader.start h }) s

/-- `FD_DATA_RD` (R262). -/
def execFdDataRd (data : Byte) (last : Bool) (s : State) : Result State :=
  xferTick (xferFrame s.cfg .data .read data last) datapathRead s

/-- `FD_CMD_WR` (R237 to R241). -/
def execFdCmdWr (data : Byte) (last : Bool) (s : State) : Result State :=
  xferTick (xferFrame s.cfg .cmd .write data last)
    (fun s => .next { idleTick s with writer := s.writer.start }) s

/-- `FD_DATA_WR` (R263). -/
def execFdDataWr (data : Byte) (last : Bool) (s : State) : Result State :=
  xferTick (xferFrame s.cfg .data .write data last) (datapathWrite last) s

/-- `FD_CFG_TC0` (R225). -/
def execFdCfgTc0 (_low : BitVec 2) (data : Byte) (_last : Bool) (s : State) : Result State :=
  latchTick .tc0 data s

/-- `FD_CFG_TC1` (R226). -/
def execFdCfgTc1 (_low : BitVec 2) (data : Byte) (_last : Bool) (s : State) : Result State :=
  latchTick .tc1 data s

/-- `FD_CFG_TC2` (R227). -/
def execFdCfgTc2 (_low : BitVec 2) (data : Byte) (_last : Bool) (s : State) : Result State :=
  latchTick .tc2 data s

/-- `FD_CFG_TC3` (R228). -/
def execFdCfgTc3 (_low : BitVec 2) (data : Byte) (_last : Bool) (s : State) : Result State :=
  latchTick .tc3 data s

/-- `FD_CFG_TD0` (R229). -/
def execFdCfgTd0 (_low : BitVec 2) (data : Byte) (_last : Bool) (s : State) : Result State :=
  latchTick .td0 data s

/-- `FD_CFG_TD1` (R230). -/
def execFdCfgTd1 (_low : BitVec 2) (data : Byte) (_last : Bool) (s : State) : Result State :=
  latchTick .td1 data s

/-- `FD_CFG_TD2` (R231). -/
def execFdCfgTd2 (_low : BitVec 2) (data : Byte) (_last : Bool) (s : State) : Result State :=
  latchTick .td2 data s

/-- `FD_CFG_TD3` (R232). -/
def execFdCfgTd3 (_low : BitVec 2) (data : Byte) (_last : Bool) (s : State) : Result State :=
  latchTick .td3 data s

/-- `FD_CFG_BS0` (R233). -/
def execFdCfgBs0 (_low : BitVec 2) (data : Byte) (_last : Bool) (s : State) : Result State :=
  latchTick .bs0 data s

/-- `FD_CFG_BS1` (R234). -/
def execFdCfgBs1 (_low : BitVec 2) (data : Byte) (_last : Bool) (s : State) : Result State :=
  latchTick .bs1 data s

/-- `FD_CFG_V` (R235). -/
def execFdCfgV (_low : BitVec 2) (data : Byte) (_last : Bool) (s : State) : Result State :=
  latchTick .volt data s

end Sys2Proof.Machine
end

