-- ==== Sys2Proof/Machine/HostOps.lean ====
section
/-! DEFINITION. The host operations (family HOST, 40_host_interface.md). Each meaning is the operation's own
part of its control tick, on the state at the start of the tick (R140). -/

namespace Sys2Proof.Machine

/-- An accepted `command` write (R143), with the value the register holds: the descriptor is latched, the
flags, the response buffer and both CRC16 engines are cleared, and the state becomes SEND_CMD. Reserved
fields (R123) and a data transfer with `blocksize = 0` (R300) are refused; a descriptor of kind NONE
moves no data whatever its direction (R178), so it starts no transfer. -/
def issueCommand (s : State) : Result State :=
  let v := s.host.command
  if cmdKind v = 3 ∨ cmdDir v = 3 then .refused .reservedCommandField
  else if cmdKind v ≠ kindNone ∧ cmdDir v ≠ dirNone ∧ s.host.blocksize = 0 then
    .refused .zeroBlocksizeTransfer
  else .next { clearErrors s with
    desc := { arg := s.host.argument, idx := cmdIdx v, kind := cmdKind v, dir := cmdDir v }
    gen := .cleared
    chk := .cleared
    blkcnt := 0
    pos := 0
    reqSent := false
    ostate := .sendCmd }

/-- An accepted configuration write (R144 to R147). -/
def startField (f : CfgField) (s : State) : State := { s with pos := 0, ostate := f.state }

/-- Service a trigger in IDLE (R143 to R147). -/
def serviceTrigger (t : Trigger) (s : State) : Result State :=
  match t with
  | .command => issueCommand s
  | .cmdtimeout => .next (startField .cmdtimeout s)
  | .datatimeout => .next (startField .datatimeout s)
  | .voltage => .next (startField .voltage s)
  | .blocksize => .next (startField .blocksize s)

/-- One more pending trigger: one pending bit per register (D18), oldest first (DESIGN CHOICE, log entry 7). -/
def remember (t : Trigger) (l : List Trigger) : List Trigger := if t ∈ l then l else l ++ [t]

/-- The trigger of a write, after the value is stored (R152): serviced only from IDLE; otherwise lost, or
remembered under `BUSY_WRITE_POLICY = defer`. DESIGN CHOICE, log entry 7: the spec does not say whether a
trigger serviced at once takes back one of the same register that is still pending; here it does not, and
the pending one is serviced later as well. -/
def hostTrigger (t : Trigger) (s : State) : Result State :=
  if s.ostate = .idle then serviceTrigger t s
  else match s.cfg.busyWritePolicy with
    | .drop => .next s
    | .defer => .next { s with pending := remember t s.pending }

/-- `WR_ARGUMENT` (R142). -/
def execWrArgument (value : BitVec 32) (s : State) : Result State :=
  .next { s with host := { s.host with argument := value } }

/-- `WR_COMMAND` (R143). -/
def execWrCommand (value : BitVec 32) (s : State) : Result State :=
  hostTrigger .command { s with host := { s.host with command := value } }

/-- `WR_CMDTIMEOUT` (R144). -/
def execWrCmdtimeout (value : BitVec 32) (s : State) : Result State :=
  hostTrigger .cmdtimeout { s with host := { s.host with cmdtimeout := value } }

/-- `WR_DATATIMEOUT` (R145). -/
def execWrDatatimeout (value : BitVec 32) (s : State) : Result State :=
  hostTrigger .datatimeout { s with host := { s.host with datatimeout := value } }

/-- `WR_VOLTAGE` (R146). -/
def execWrVoltage (value : BitVec 8) (s : State) : Result State :=
  hostTrigger .voltage { s with host := { s.host with voltage := value } }

/-- `WR_BLOCKSIZE` (R147). -/
def execWrBlocksize (value : BitVec 16) (s : State) : Result State :=
  hostTrigger .blocksize { s with host := { s.host with blocksize := value } }

/-- `WR_BLOCKCOUNT` (R148): no trigger. -/
def execWrBlockcount (value : BitVec 16) (s : State) : Result State :=
  .next { s with host := { s.host with blockcount := value } }

/-- The value a host read returns, on read data lines as wide as `response`. -/
def returnRead (v : BitVec 120) (s : State) : State := { s with out := { s.out with rdata := some v } }

/-- `RD_RESPONSE` (R149). -/
def execRdResponse (s : State) : Result State := .next (returnRead s.response s)

/-- `RD_CMDEVT` (R150). -/
def execRdCmdevt (s : State) : Result State := .next (returnRead ((cmdevt s).setWidth 120) s)

/-- `RD_DATAEVT` (R151). -/
def execRdDataevt (s : State) : Result State := .next (returnRead ((dataevt s).setWidth 120) s)

end Sys2Proof.Machine
end

