-- ==== Sys2Proof/Machine/Orchestrator.lean ====
section
/-! DEFINITION. The Control Orchestrator (41_orchestrator.md): what it offers to `DOWNQ` in each state, what
it does with the frame at the head of `UPQ`, and the meanings of the up-frame operations (family FU). -/

namespace Sys2Proof.Machine

/-! Blocks. -/

/-- The end of a block in the block loop (R197, R204). -/
def endBlock (s : State) : State :=
  if s.blkcnt = s.host.blockcount then
    { s with blkcnt := 0, dataf := { s.dataf with done := true }, ostate := .idle }
  else
    { s with blkcnt := s.blkcnt + 1 }

/-! The producer side of `DOWNQ`. A frame the queue does not accept is offered again in the next tick
(R170). -/

/-- A configuration state (R172): one byte of the field, from its host register as it stands. -/
def streamField (f : CfgField) (s : State) : Result State :=
  match fieldFrame s.cfg s.host f s.pos.toNat with
  | none => .fault .positionOutOfRange
  | some fr =>
    if s.downq.ready then
      if fr.last then .next { s.pushDown fr with pos := 0, ostate := .idle }
      else .next { s.pushDown fr with pos := s.pos + 1 }
    else .next s

/-- The frame SEND_CMD offers (R177). -/
def commandFrame (s : State) : Option Frame :=
  (cmdByte s.cfg s.desc s.pos.toNat).map fun b =>
    xferFrame s.cfg .cmd .write b (decide (s.pos = 5 ∧ s.desc.kind = kindNone))

/-- SEND_CMD (R177, R178). -/
def sendCommand (s : State) : Result State :=
  match commandFrame s with
  | none => .fault .positionOutOfRange
  | some fr =>
    if s.downq.ready then
      if s.pos.toNat < 5 then .next { s.pushDown fr with pos := s.pos + 1 }
      else if s.desc.kind = kindNone then
        .next { s.pushDown fr with
          pos := 0
          cmdf := { s.cmdf with done := true }
          dataf := { s.dataf with done := true }
          ostate := .idle }
      else .next { s.pushDown fr with pos := 0, reqSent := false, ostate := .recvResp }
    else .next s

/-- The response request (R180). -/
def responseRequest (s : State) : Frame :=
  xferFrame s.cfg .cmd .read (readLength s.cfg s.desc.kind) (decide (s.desc.dir = dirNone))

/-- The data request (R110, R192). -/
def blockRequest (s : State) : Frame :=
  xferFrame s.cfg .data .read 0 (decide (s.blkcnt = s.host.blockcount))

/-- Push a request exactly once (R38, D16). -/
def sendRequest (fr : Frame) (s : State) : State :=
  if !s.reqSent && s.downq.ready then { s.pushDown fr with reqSent := true } else s

/-- SEND_DATA, the producer side (R198, R199, R204). -/
def sendBlockByte (s : State) : State :=
  let s := { s with out := { s.out with diReady := genTakes s } }
  match genOffer s with
  | none => s
  | some (b, last) =>
    if s.downq.ready then
      let s' := { s.pushDown (xferFrame s.cfg .data .write b last) with
        gen := genAdvance s.cfg s.host.blocksize b s.gen }
      if last then endBlock s' else s'
    else s

/-- What the orchestrator's state does at the producer port of `DOWNQ` (R170 (b)). -/
def emit (s : State) : Result State :=
  match s.ostate with
  | .idle => .next s
  | .cfgTimeoutCmd => streamField .cmdtimeout s
  | .cfgTimeoutData => streamField .datatimeout s
  | .cfgBlksize => streamField .blocksize s
  | .cfgVoltage => streamField .voltage s
  | .sendCmd => sendCommand s
  | .recvResp => .next (sendRequest (responseRequest s) s)
  | .recvData => .next (sendRequest (blockRequest s) s)
  | .sendData => .next (sendBlockByte s)

/-! The consumer side of `UPQ`. -/

/-- RECV_RESP, a popped frame (R183): TIMEOUT (R188) before `last` (R189, R191) before a non-final byte
(R190); every other status is treated as OK. -/
def takeResponse (f : Frame) (s : State) : State :=
  if f.status = Status.timeout.code then raise .commandTimeout s
  else if f.last then
    let s := { s with
      cmdf := { s.cmdf with crcCheck := f.data.extractLsb' 1 7, crcEn := true, done := true } }
    if s.desc.dir = dirRead then { s with reqSent := false, ostate := .recvData }
    else if s.desc.dir = dirWrite then { s with ostate := .sendData }
    else { s with dataf := { s.dataf with done := true }, ostate := .idle }
  else { s with response := s.response.extractLsb' 0 112 ++ f.data }

/-- `uq_ready` in RECV_DATA (R193). -/
def blockReady (f : Frame) (s : State) : Bool :=
  f.status != Status.ok.code || checkerReady s

/-- RECV_DATA, a popped frame: TIMEOUT (R196) before anything else; a byte with status OK goes to the
checker (R194), any other is dropped (R195); `last` ends the block (R197). -/
def takeBlockByte (f : Frame) (s : State) : State :=
  if f.status = Status.timeout.code then raise .dataTimeout s
  else
    let s := if f.status = Status.ok.code then checkerTake f.data s else s
    if f.last then
      if s.blkcnt = s.host.blockcount then endBlock s else { endBlock s with reqSent := false }
    else s

/-- SEND_DATA, a popped frame (R200): every status but DATA_ACCEPTED raises DataWriteError. -/
def inspectAck (f : Frame) (s : State) : State :=
  if f.status = Status.dataAccepted.code then s else raise .dataWriteError s

/-- The frame `f` is at the head of `UPQ` in a control tick: popped and acted on where the state's
`uq_ready` is 1, left where it is 0 (R170 (c)). IDLE pops and discards only under `UQ_IDLE_POLICY = drain`
(R171, R394). -/
def consumeUp (f : Frame) (s : State) : Result State :=
  match s.ostate with
  | .idle =>
    match s.cfg.uqIdlePolicy with
    | .hold => .next s
    | .drain => popUp s
  | .cfgTimeoutCmd => .next s
  | .cfgTimeoutData => .next s
  | .cfgBlksize => .next s
  | .cfgVoltage => .next s
  | .sendCmd => .next s
  | .recvResp => andThen (popUp s) fun s => .next (takeResponse f s)
  | .recvData => if blockReady f s then andThen (popUp s) fun s => .next (takeBlockByte f s) else .next s
  | .sendData => andThen (popUp s) fun s => .next (inspectAck f s)

/-! The up-frame operations. -/

/-- `FU_CMD_OK` (R206). -/
def execFuCmdOk (res : BitVec 3) (data : Byte) (last : Bool) (s : State) : Result State :=
  consumeUp (upFrame res .ok .cmd data last) s

/-- `FU_DATA_OK` (R208). -/
def execFuDataOk (res : BitVec 3) (data : Byte) (last : Bool) (s : State) : Result State :=
  consumeUp (upFrame res .ok .data data last) s

/-- `FU_CMD_TIMEOUT` (R207). -/
def execFuCmdTimeout (res : BitVec 3) (data : Byte) (last : Bool) (s : State) : Result State :=
  consumeUp (upFrame res .timeout .cmd data last) s

/-- `FU_DATA_TIMEOUT` (R209). -/
def execFuDataTimeout (res : BitVec 3) (data : Byte) (last : Bool) (s : State) : Result State :=
  consumeUp (upFrame res .timeout .data data last) s

/-- `FU_DATA_ACCEPTED` (R210). -/
def execFuDataAccepted (res : BitVec 3) (data : Byte) (last : Bool) (s : State) : Result State :=
  consumeUp (upFrame res .dataAccepted .data data last) s

/-- `FU_DATA_CRCERR` (R211). -/
def execFuDataCrcerr (res : BitVec 3) (data : Byte) (last : Bool) (s : State) : Result State :=
  consumeUp (upFrame res .crcError .data data last) s

/-- `FU_DATA_WRERR` (R212). -/
def execFuDataWrerr (res : BitVec 3) (data : Byte) (last : Bool) (s : State) : Result State :=
  consumeUp (upFrame res .writeError .data data last) s

end Sys2Proof.Machine
end

