-- ==== Sys2Proof/Machine/Dispatch.lean ====
section
/-! DEFINITION. One arm per operation of the table (R111). -/

namespace Sys2Proof.Machine

def exec (i : Instr) (s : State) : Host.Outcome State Fault Refusal :=
  match i with
  | .wrArgument value => Sys2Proof.Machine.execWrArgument value s
  | .wrCommand value => Sys2Proof.Machine.execWrCommand value s
  | .wrCmdtimeout value => Sys2Proof.Machine.execWrCmdtimeout value s
  | .wrDatatimeout value => Sys2Proof.Machine.execWrDatatimeout value s
  | .wrVoltage value => Sys2Proof.Machine.execWrVoltage value s
  | .wrBlocksize value => Sys2Proof.Machine.execWrBlocksize value s
  | .wrBlockcount value => Sys2Proof.Machine.execWrBlockcount value s
  | .rdResponse => Sys2Proof.Machine.execRdResponse s
  | .rdCmdevt => Sys2Proof.Machine.execRdCmdevt s
  | .rdDataevt => Sys2Proof.Machine.execRdDataevt s
  | .fdCmdRd data last => Sys2Proof.Machine.execFdCmdRd data last s
  | .fdDataRd data last => Sys2Proof.Machine.execFdDataRd data last s
  | .fdCmdWr data last => Sys2Proof.Machine.execFdCmdWr data last s
  | .fdDataWr data last => Sys2Proof.Machine.execFdDataWr data last s
  | .fdCfgTc0 low data last => Sys2Proof.Machine.execFdCfgTc0 low data last s
  | .fdCfgTc1 low data last => Sys2Proof.Machine.execFdCfgTc1 low data last s
  | .fdCfgTc2 low data last => Sys2Proof.Machine.execFdCfgTc2 low data last s
  | .fdCfgTc3 low data last => Sys2Proof.Machine.execFdCfgTc3 low data last s
  | .fdCfgTd0 low data last => Sys2Proof.Machine.execFdCfgTd0 low data last s
  | .fdCfgTd1 low data last => Sys2Proof.Machine.execFdCfgTd1 low data last s
  | .fdCfgTd2 low data last => Sys2Proof.Machine.execFdCfgTd2 low data last s
  | .fdCfgTd3 low data last => Sys2Proof.Machine.execFdCfgTd3 low data last s
  | .fdCfgBs0 low data last => Sys2Proof.Machine.execFdCfgBs0 low data last s
  | .fdCfgBs1 low data last => Sys2Proof.Machine.execFdCfgBs1 low data last s
  | .fdCfgV low data last => Sys2Proof.Machine.execFdCfgV low data last s
  | .fuCmdOk res data last => Sys2Proof.Machine.execFuCmdOk res data last s
  | .fuDataOk res data last => Sys2Proof.Machine.execFuDataOk res data last s
  | .fuCmdTimeout res data last => Sys2Proof.Machine.execFuCmdTimeout res data last s
  | .fuDataTimeout res data last => Sys2Proof.Machine.execFuDataTimeout res data last s
  | .fuDataAccepted res data last => Sys2Proof.Machine.execFuDataAccepted res data last s
  | .fuDataCrcerr res data last => Sys2Proof.Machine.execFuDataCrcerr res data last s
  | .fuDataWrerr res data last => Sys2Proof.Machine.execFuDataWrerr res data last s

end Sys2Proof.Machine
end

