-- ==== Sys2Proof/Machine/Tick.lean ====
section
/-! DEFINITION. The ticks of the two contexts: how the operations of `exec` come together in one control
tick (R140, R170) and one bus tick (R223, R256), the steps of the crossing lag (R326), reset (R380), and
where the next event comes from. -/

namespace Sys2Proof.Machine

/-! The control tick. -/

/-- The up frame that the orchestrator sees: the operation it decodes to, or, for a tag that is no row of
the operation map, the orchestrator's behaviour for every status (R122, U2). -/
def consume (s : State) : Result State :=
  match s.upq.head? with
  | none => .next s
  | some f =>
    match decodeUp f with
    | .ok i => exec i s
    | .error _ => consumeUp f s

/-- The name a refused host access is refused under. -/
def hostRefusal : HostError → Refusal
  | .notAnOperation we id => .notAnOperation we id
  | .noSuchRegister id => .noSuchRegister id

/-- The host operation of the tick, if any (R140). -/
def hostPart (s : State) : Result State :=
  match s.cin.host with
  | none => .next s
  | some a =>
    match decodeHost a with
    | .ok i => exec i s
    | .error e => .refused (hostRefusal e)

/-- In IDLE, under `BUSY_WRITE_POLICY = defer`, the oldest pending trigger is serviced, on the state at the
start of the tick (R12). Without the policy none is pending. DESIGN CHOICE, log entry 7: the spec does not
say in which order and when pending triggers are serviced. -/
def servicePending (s : State) : Result State :=
  match s.pending with
  | [] => .next s
  | t :: rest => serviceTrigger t { s with pending := rest }

/-- The orchestrator's own step outside IDLE (R170 (b), (c)). Both parts read the state at the start of the
tick. In RECV_RESP and RECV_DATA the push writes nothing the pop reads; elsewhere the pop writes nothing
the push reads; where both write `req_sent` the pop, which R170 names later, wins (R12). -/
def orchTick (s : State) : Result State :=
  match s.ostate with
  | .recvResp => andThen (emit s) consume
  | .recvData => andThen (emit s) consume
  | .sendData => andThen (consume s) emit
  | .sendCmd => andThen (consume s) emit
  | .cfgTimeoutCmd => andThen (consume s) emit
  | .cfgTimeoutData => andThen (consume s) emit
  | .cfgBlksize => andThen (consume s) emit
  | .cfgVoltage => andThen (consume s) emit
  | .idle => consume s

/-- The orchestrator's own step `s` together with what the host operation of the tick wrote in `sh` to the
host registers and the read data (R141, R149). -/
def State.withHostWrites (s sh : State) : State :=
  { s with host := sh.host, out := { s.out with rdata := sh.out.rdata } }

/-- The same outside IDLE, where the host operation may also leave a trigger pending (R152). -/
def State.withHostOf (s sh : State) : State := { s.withHostWrites sh with pending := sh.pending }

/-- The state in which a control tick with inputs `i` begins. -/
def State.withCtl (i : CtlIn) (s : State) : State := { s with cin := i, out := .quiet }

/-- The host operation and the triggers of a tick in IDLE, on the same state. A host operation that
triggered is serviced itself; beside any other the oldest pending trigger is, with what the host operation
wrote joined at the end of the tick, so that a command serviced beside a write of `argument` latches the
value at the start of the tick (R12, R140). -/
def idleStep (s : State) : Result State :=
  andThen (hostPart s) fun sh =>
    if sh.ostate = .idle then andThen (servicePending s) fun s' => .next (s'.withHostWrites sh)
    else .next sh

/-- One control tick, the inputs in place (R140, R170). In IDLE the orchestrator's own step writes nothing
that the rest of the tick reads. -/
def controlStep (s : State) : Result State :=
  if s.ostate = .idle then andThen (orchTick s) idleStep
  else andThen (hostPart s) fun sh => andThen (orchTick s) fun s' => .next (s'.withHostOf sh)

/-- One control tick with inputs `i`. -/
def controlTick (i : CtlIn) (s : State) : Result State := controlStep (s.withCtl i)

/-! The bus tick. -/

/-- The state in which a bus tick with inputs `i` begins. -/
def State.withBus (i : BusIn) (s : State) : State := { s with bin := i }

/-- One bus tick, the inputs in place (R223, R256): the operation at the head of `DOWNQ` if one is visible,
else the machines alone. -/
def busStep (s : State) : Result State :=
  match s.downq.head? with
  | none => machinesTick none s
  | some f =>
    match decodeDown s.cfg f with
    | .ok i => exec i s
    | .error _ => discardTick s

/-- One bus tick with inputs `i`. -/
def busTick (i : BusIn) (s : State) : Result State := busStep (s.withBus i)

/-! The queues' lag (R326). -/

/-- The queue of a name. -/
def State.queue (q : QueueName) (s : State) : Queue :=
  match q with
  | .downq => s.downq
  | .upq => s.upq

/-- Apply an operation of one queue. -/
def State.onQueue (q : QueueName) (f : Queue → Queue) (s : State) : State :=
  match q with
  | .downq => { s with downq := f s.downq }
  | .upq => { s with upq := f s.upq }

/-! Events. -/

/-- What one event does. -/
def runEvent (e : Event) (s : State) : Result State :=
  match e with
  | .control i => controlTick i s
  | .bus i => busTick i s
  | .syncVis q => .next (s.onQueue q Queue.syncVis)
  | .syncCred q => .next (s.onQueue q Queue.syncCred)
  | .reset => .next (State.resetWith s.cfg s.env s.time)

/-- The next event: the first one listed; where none is listed, the environment's free choice (R51). -/
def nextEvent (s : State) : Event :=
  match s.env with
  | e :: _ => e
  | [] => Config.freeEvent s.time

/-- The state with its next event taken. -/
def State.advance (s : State) : State := { s with env := s.env.tail, time := s.time + 1 }

/-! Placing an operation where the next step runs it. -/

/-- The queue with frame `f` as its visible head. -/
def Queue.withHead (f : Frame) (q : Queue) : Queue :=
  let items := f :: q.items.tail
  { items := items, vis := max 1 q.vis, cred := min q.cred (2 - items.length) }

/-- The state with event `e` listed next. -/
def State.withEvent (e : Event) (s : State) : State := { s with env := e :: s.env }

/-- What DATAPATH does in the tick that runs a frame of its own: it delivers a byte for a read request, takes
the byte of a write frame, and for the last byte of a block acknowledges it as accepted. -/
def datapathChoice (f : Frame) : DpAct :=
  if f.ctrl.getLsbD 1 then
    (if f.last then .ack Status.dataAccepted.code true else .take)
  else .deliver 0

/-- The states that consume the frames of an up operation (R206 to R212): `ostate` if it consumes already,
else the state in which the frame's producer sends it. -/
def consumingState (f : Frame) : OState → OState
  | .recvResp => .recvResp
  | .recvData => .recvData
  | .sendData => .sendData
  | _ =>
    if f.ctrl.getLsbD 0 then
      (if f.status = Status.ok.code ∨ f.status = Status.timeout.code then .recvData else .sendData)
    else .recvResp

/-- The state whose next step runs the operation on its port: a host access is the access of the next
control tick; a down frame is the visible head of `DOWNQ` in the next bus tick, with the writer and the
reader IDLE; an up frame is the visible head of `UPQ` in the next control tick, in a state that pops it. -/
def State.withPortWord (p : PortWord) (s : State) : State :=
  match p with
  | .host a => s.withEvent (.control { host := some a, di := none, doReady := true })
  | .down f =>
    { s with
      downq := s.downq.withHead f
      writer := { s.writer with st := .idle }
      reader := { s.reader with st := .idle } }.withEvent
      (.bus { cmdI := true, dp := datapathChoice f, dpClkEn := true, dpDat := none })
  | .up f =>
    { s with
      upq := s.upq.withHead f
      ostate := consumingState f s.ostate }.withEvent
      (.control { host := none, di := none, doReady := true })

end Sys2Proof.Machine
end

