-- ==== Sys2Proof/Machine/Step.lean ====
section
/-! DEFINITION. One step: the next event of the environment (R7, R51). -/

namespace Sys2Proof.Machine

/-- One step of the machine: a tick of one context, a step of a queue's lag, or reset. -/
def step (s : State) : Host.Outcome State Fault Refusal :=
  runEvent (nextEvent s) s.advance

/-- `s` with the operation of a table word placed where the next step fetches it (`tableWordPort`,
`State.withPortWord`). A number that is no word of any port leaves `s` as it is. -/
def State.withFetchWord (s : State) (nbits w : Nat) : State :=
  match tableWordPort nbits w with
  | some p => s.withPortWord p
  | none => s

end Sys2Proof.Machine
end

