-- ==== Sys2Proof/WellFormed.lean ====
section
/-! DEFINITION. Which terms carry no reserved field, and which parameters make a block. Well-formedness
of an operation says only that no field holds a value the spec reserves; what the block does with a
reserved value is in its meaning. -/

namespace Sys2Proof

/-- No field of the operation holds a value the spec calls reserved: the kind and direction fields of a
`command` write are not 3 (R123), a block size is not 0 (R54, R147), and `ctrl[7:5]` of an up frame is 0
(R96, R122). -/
def Instr.wellFormed : Instr → Bool
  | .wrArgument _ => true
  | .wrCommand v => v.extractLsb' 0 2 != 3 && v.extractLsb' 5 2 != 3
  | .wrCmdtimeout _ => true
  | .wrDatatimeout _ => true
  | .wrVoltage _ => true
  | .wrBlocksize v => v != 0
  | .wrBlockcount _ => true
  | .rdResponse => true
  | .rdCmdevt => true
  | .rdDataevt => true
  | .fdCmdRd _ _ => true
  | .fdDataRd _ _ => true
  | .fdCmdWr _ _ => true
  | .fdDataWr _ _ => true
  | .fdCfgTc0 _ _ _ => true
  | .fdCfgTc1 _ _ _ => true
  | .fdCfgTc2 _ _ _ => true
  | .fdCfgTc3 _ _ _ => true
  | .fdCfgTd0 _ _ _ => true
  | .fdCfgTd1 _ _ _ => true
  | .fdCfgTd2 _ _ _ => true
  | .fdCfgTd3 _ _ _ => true
  | .fdCfgBs0 _ _ _ => true
  | .fdCfgBs1 _ _ _ => true
  | .fdCfgV _ _ _ => true
  | .fuCmdOk r _ _ => r == 0
  | .fuDataOk r _ _ => r == 0
  | .fuCmdTimeout r _ _ => r == 0
  | .fuDataTimeout r _ _ => r == 0
  | .fuDataAccepted r _ _ => r == 0
  | .fuDataCrcerr r _ _ => r == 0
  | .fuDataWrerr r _ _ => r == 0

/-- The parameters make a block: the mode encoding is injective (D3), the CRC7 checker's input is part of
the 120-bit buffer (R286), and the read-length payloads 6 and 17 less the bias fit their byte (R107). -/
def Config.wellFormed (c : Config) : Bool :=
  c.modes.injective && decide (c.crc7CheckWidth ≤ 120) && decide (c.readlenBias.toNat ≤ 6)

end Sys2Proof
end

