-- ==== Sys2Proof/Safety.lean ====
section
/-! DEFINITION. What the spec says of every reachable state (R37, R39, R216, R245, R254, R257, R262, R327,
R215, R347), in the terms the statements use, runs of bus ticks, and fair runs (R326, R331). -/

namespace Sys2Proof.Machine

/-- The bounds of a queue (R327). -/
structure QueueOk (q : Queue) : Prop where
  capacity : q.items.length ≤ 2
  seen : q.vis ≤ q.items.length
  credit : q.cred + q.items.length ≤ 2

/-- The last byte index of the unit a state emits (R37, R216); 0 for a state that emits no indexed unit. -/
def maxPos : OState → Nat
  | .cfgTimeoutCmd => 3
  | .cfgTimeoutData => 3
  | .cfgBlksize => 1
  | .sendCmd => 5
  | .cfgVoltage => 0
  | .idle => 0
  | .recvResp => 0
  | .recvData => 0
  | .sendData => 0

/-- The orchestrator's sequencing state (R37, R39, R216), and the descriptor, which holds no reserved field
(R123). -/
structure SequenceOk (s : State) : Prop where
  pos : s.pos.toNat ≤ maxPos s.ostate
  blkcnt : s.ostate ≠ .recvData → s.ostate ≠ .sendData → s.blkcnt = 0
  kind : s.desc.kind ≠ 3
  dir : s.desc.dir ≠ 3

/-- The head of `DOWNQ` is visible and is an XFER frame of the channel and direction (R257). -/
def HeadIs (ch : Channel) (dir : Direction) (s : State) : Prop :=
  ∃ f, s.downq.head? = some f ∧ f.ctrl = tag s.cfg.modes ch dir .xfer

/-- The reader is in a state that holds the request at the head of `DOWNQ` (R257). -/
def RState.holdsHead : RState → Bool
  | .cmdReadstart => true
  | .cmdRead => true
  | .timeout => true
  | .idle => false
  | .cmdClk8 => false

/-- The writer is in a state that holds its frame at the head of `DOWNQ` (R257). -/
def WState.holdsHead : WState → Bool
  | .init => true
  | .cmdWrite => true
  | .idle => false
  | .cmdClk8 => false

/-- The writer, the reader and the sampler (R239, R241, R245, R254, R257). -/
structure FramerOk (s : State) : Prop where
  exclusion : s.writer.st = .idle ∨ s.reader.st = .idle
  writerHead : s.writer.st.holdsHead = true → HeadIs .cmd .write s
  readerHead : s.reader.st.holdsHead = true → HeadIs .cmd .read s
  initCount : s.writer.st = .init → s.writer.cnt.toNat ≤ 79
  clk8Count : s.writer.st = .cmdClk8 → s.writer.cnt.toNat ≤ 7
  initDone : s.writer.st = .cmdWrite ∨ s.writer.st = .cmdClk8 → s.writer.initDone = true
  timeout : s.reader.st = .cmdReadstart → s.reader.timeout ≤ s.fcfg.cmdtimeout
  startBit : s.reader.st = .cmdReadstart → s.sampler.st = .read → s.sampler.cnt = 1
  sampling : s.reader.st = .cmdRead → s.sampler.st = .read

/-- DATAPATH's contract is under way only for a frame of its own (R262, R263, R265). -/
structure DatapathOk (s : State) : Prop where
  read : s.datapath.sent ≠ 0 → bothIdle s = true ∧ HeadIs .data .read s ∧
    s.datapath.sent < s.fcfg.blocksize.toNat + 2
  write : s.datapath.acked = true → bothIdle s = true ∧ HeadIs .data .write s

/-- The invariant: what the spec says of every reachable state; `lines` is the width of `dat_o` (R45). -/
structure Inv (s : State) : Prop where
  cfg : s.cfg.wellFormed = true
  downq : QueueOk s.downq
  upq : QueueOk s.upq
  sequence : SequenceOk s
  framer : FramerOk s
  datapath : DatapathOk s
  lines : ∀ l, s.pads.dat = some l → l.length = s.cfg.dataWidth

/-- A command cycle's flags by the orchestrator's state, for `DONE_ON_TIMEOUT = false` (R215, R347). -/
def FlagsOk (s : State) : Prop :=
  match s.ostate with
  | .sendCmd => s.cmdf = .clear ∧ s.dataf = .clear
  | .recvResp => s.cmdf = .clear ∧ s.dataf = .clear
  | .recvData => s.cmdf.done = true ∧ s.cmdf.timeout = false ∧ s.dataf.done = false ∧
      s.dataf.timeout = false ∧ s.dataf.werr = false
  | .sendData => s.cmdf.done = true ∧ s.cmdf.timeout = false ∧ s.dataf.done = false ∧
      s.dataf.timeout = false ∧ s.dataf.crcerr = false
  | _ => (s.cmdf = .clear ∧ s.dataf = .clear) ∨
      (s.cmdf.done ≠ s.cmdf.timeout ∧ s.dataf.done ≠ s.dataf.timeout ∧
        (s.cmdf.timeout = true → s.cmdf.crcEn = false ∧ s.dataf.done = true ∧
          s.dataf.werr = false ∧ s.dataf.crcerr = false) ∧
        (s.dataf.timeout = true → s.dataf.werr = false) ∧
        (s.dataf.werr = true → s.dataf.crcerr = false))

/-- The arcs of the orchestrator's state (R217), and a state that stays. -/
def Arc : OState → OState → Bool
  | .idle, .cfgTimeoutCmd => true
  | .idle, .cfgTimeoutData => true
  | .idle, .cfgVoltage => true
  | .idle, .cfgBlksize => true
  | .idle, .sendCmd => true
  | .cfgTimeoutCmd, .idle => true
  | .cfgTimeoutData, .idle => true
  | .cfgVoltage, .idle => true
  | .cfgBlksize, .idle => true
  | .sendCmd, .idle => true
  | .sendCmd, .recvResp => true
  | .recvResp, .idle => true
  | .recvResp, .recvData => true
  | .recvResp, .sendData => true
  | .recvData, .idle => true
  | .sendData, .idle => true
  | a, b => a == b

/-- The control side's own state (R20, sections 2 to 5 of 10_state.md) is the same in two states. -/
structure SameControl (s t : State) : Prop where
  host : t.host = s.host
  pending : t.pending = s.pending
  desc : t.desc = s.desc
  response : t.response = s.response
  cmdf : t.cmdf = s.cmdf
  dataf : t.dataf = s.dataf
  ostate : t.ostate = s.ostate
  pos : t.pos = s.pos
  reqSent : t.reqSent = s.reqSent
  blkcnt : t.blkcnt = s.blkcnt
  gen : t.gen = s.gen
  chk : t.chk = s.chk
  out : t.out = s.out
  cin : t.cin = s.cin

/-- The bus side's own state (R20, section 6 of 10_state.md) is the same in two states. -/
structure SameBus (s t : State) : Prop where
  fcfg : t.fcfg = s.fcfg
  writer : t.writer = s.writer
  reader : t.reader = s.reader
  sampler : t.sampler = s.sampler
  datapath : t.datapath = s.datapath
  pads : t.pads = s.pads
  bin : t.bin = s.bin

/-- The state in which the control tick of a step with inputs `c` begins. -/
def ctlStart (c : CtlIn) (s : State) : State :=
  { s with cin := c, out := .quiet, time := s.time + 1 }

/-- The state in which the bus tick of a step with inputs `b` begins. -/
def busStart (b : BusIn) (s : State) : State := { s with bin := b, time := s.time + 1 }

/-- A run of bus ticks with the given inputs, and the pads of each. -/
def busRun : List BusIn → State → Result (State × List Pads)
  | [], s => .next (s, [])
  | i :: rest, s =>
    andThen (busTick i s) fun t =>
    andThen (busRun rest t) fun p => .next (p.1, t.pads :: p.2)

/-! Runs without end. -/

/-- `σ` is the run in which event `e n` happens in state `σ n`: `e` is what the scheduler and the other agents
choose (R7). -/
def IsRun (e : Nat → Event) (σ : Nat → State) : Prop :=
  ∀ n, step ((σ n).withEvent (e n)) = .next (σ (n + 1))

/-- `QueueLag` is "any finite lag": "every enabled `sync_vis` and `sync_cred` is eventually taken" (R9,
R326). That neither is early is how the two steps are made. -/
def LagIsFinite (e : Nat → Event) (σ : Nat → State) : Prop :=
  ∀ q n,
    (((σ n).queue q).vis < ((σ n).queue q).items.length → ∃ m, n ≤ m ∧ e m = .syncVis q) ∧
    (((σ n).queue q).cred < 2 - ((σ n).queue q).items.length → ∃ m, n ≤ m ∧ e m = .syncCred q)

/-- The two contexts "run concurrently and indefinitely" (R7). -/
def ContextsKeepTicking (e : Nat → Event) : Prop :=
  ∀ n, (∃ m i, n ≤ m ∧ e m = .control i) ∧ (∃ m i, n ≤ m ∧ e m = .bus i)

/-- Step `n` of the run pops the head of queue `q`. -/
def Pops (σ : Nat → State) (q : QueueName) (n : Nat) : Prop :=
  ∃ f, ((σ n).queue q).items = f :: ((σ (n + 1)).queue q).items

/-- DATAPATH owns the head of `DOWNQ` (R262, R263). -/
def DatapathOwns (s : State) : Prop := bothIdle s = true ∧ ∃ d, HeadIs .data d s

/-- The reader or DATAPATH needs a free place in `UPQ` (R246, R248, R262, R263). -/
def NeedsUpq (s : State) : Prop := s.reader.st = .cmdRead ∨ s.reader.st = .timeout ∨ DatapathOwns s

/-- "`UPQ` is eventually ready when the reader or DATAPATH needs it" (R331). -/
def UpqServes (σ : Nat → State) : Prop :=
  ∀ n, NeedsUpq (σ n) → ∃ m, n ≤ m ∧ (σ m).upq.ready = true

/-- What the block may assume of DATAPATH's liveness: "every owned frame is eventually popped, provided `UPQ`
is eventually ready" (R266). -/
def DatapathIsLive (σ : Nat → State) : Prop :=
  UpqServes σ → ∀ n, DatapathOwns (σ n) → ∃ m, n ≤ m ∧ Pops σ .downq m

/-- A fair run without a reset: the queues' lag is finite, both contexts keep ticking, and DATAPATH is live
(R7, R266, R326). No step of the model makes a run fair; fairness is a hypothesis (log entry 23). -/
structure FairRun (e : Nat → Event) (σ : Nat → State) : Prop where
  run : IsRun e σ
  lag : LagIsFinite e σ
  ticks : ContextsKeepTicking e
  datapath : DatapathIsLive σ
  noReset : ∀ n, e n ≠ .reset

/-- The bits the block drives on the command line in the clocked ticks of a run (R131, an `H:` run). -/
def drivenBits (l : List Pads) : List Bool :=
  l.filterMap fun p => if p.clkEn then p.cmd else none

end Sys2Proof.Machine
end

