-- ==== Sys2Proof/Certificates/Slice0/Obligations.lean ====
section
/-! DEFINITION. The statements for the provers, from the numbered rules of spec/. An equation with
`.next { s with … }` says the whole next state: every field it does not name is as in `s`. -/

namespace Sys2Proof.Machine

/-! Words the statements share. -/

/-- `v'` is `v` with byte `k` (bits `[8k+7:8k]`) taken from `b` and every other byte kept. -/
def WritesByte {w : Nat} (v v' : BitVec w) (k : Nat) (b : Byte) : Prop :=
  byteAt v' k = b ∧ ∀ j, j ≠ k → byteAt v' j = byteAt v j

/-- The pads of a safe idle tick (R222). -/
def SafeIdlePads (s : State) : Pads :=
  { clkEn := false, cmd := some true, dat := none, voltageSel := s.fcfg.voltage }

/-- The pads of a clocked tick that drives `b` on the command line. -/
def ClockedBit (s : State) (b : Bool) : Pads :=
  { clkEn := true, cmd := some b, dat := none, voltageSel := s.fcfg.voltage }

/-- The state after a configuration frame left the Configuration copy at `r`, the writer and the reader
being IDLE. -/
def afterLatch (s : State) (r : FramerRegs) : State :=
  { s with fcfg := r, downq := s.downq.pop, pads := SafeIdlePads s, sampler := .off }

/-- The configuration frames. -/
def configOps (w : BitVec 2) (d : Byte) (l : Bool) : List Instr :=
  [.fdCfgTc0 w d l, .fdCfgTc1 w d l, .fdCfgTc2 w d l, .fdCfgTc3 w d l,
   .fdCfgTd0 w d l, .fdCfgTd1 w d l, .fdCfgTd2 w d l, .fdCfgTd3 w d l,
   .fdCfgBs0 w d l, .fdCfgBs1 w d l, .fdCfgV w d l]

/-- The up operations whose status is not TIMEOUT. -/
def byteOps (r : BitVec 3) (d : Byte) (l : Bool) : List Instr :=
  [.fuCmdOk r d l, .fuDataOk r d l, .fuDataAccepted r d l, .fuDataCrcerr r d l, .fuDataWrerr r d l]

/-- The up operations whose status is TIMEOUT. -/
def timeoutOps (r : BitVec 3) (d : Byte) (l : Bool) : List Instr :=
  [.fuCmdTimeout r d l, .fuDataTimeout r d l]

/-- The up operations whose status is OK. -/
def okOps (r : BitVec 3) (d : Byte) (l : Bool) : List Instr :=
  [.fuCmdOk r d l, .fuDataOk r d l]

/-- The up operations whose status is neither OK nor TIMEOUT. -/
def ackOps (r : BitVec 3) (d : Byte) (l : Bool) : List Instr :=
  [.fuDataAccepted r d l, .fuDataCrcerr r d l, .fuDataWrerr r d l]

/-- What `s` makes of an up frame with payload `d`, marker `l` and any status but TIMEOUT is `o`: of each
operation, and of a frame at the head of `UPQ` whose tag is no operation. -/
def TakesByte (s : State) (r : BitVec 3) (d : Byte) (l : Bool) (o : Result State) : Prop :=
  (∀ i ∈ byteOps r d l, exec i s = o) ∧
  ∀ f e, s.upq.head? = some f → f.data = d → f.last = l → decodeUp f = .error e → consume s = o

/-- The states that consume no up frame, with `UQ_IDLE_POLICY = hold` for IDLE (R171, R172, R177). -/
def ConsumesNone (s : State) : Prop :=
  (s.ostate = .idle ∧ s.cfg.uqIdlePolicy = .hold) ∨ s.ostate = .cfgTimeoutCmd ∨
  s.ostate = .cfgTimeoutData ∨ s.ostate = .cfgBlksize ∨ s.ostate = .cfgVoltage ∨ s.ostate = .sendCmd

/-- The bytes of a block as the CRC16 checker takes them, one after another. -/
def checkerRun (bytes : List Byte) (s : State) : State :=
  bytes.foldl (fun s b => checkerTake b s) s

/-- The bytes the CRC16 generator gives for a block of payload `p`, with their `g_last` (R292, R293). -/
def generatorRun (c : Config) (blocksize : BitVec 16) : Generator → List Byte → Generator × List (Byte × Bool)
  | g, [] => (g, [])
  | g, b :: p =>
    let r := generatorRun c blocksize (genAdvance c blocksize b g) p
    (r.1, (b, false) :: r.2)

/-- The event is a tick of the context that produces into the queue (R320). -/
def ProducerTick : QueueName → Event → Prop
  | .downq, e => ∃ i, e = .control i
  | .upq, e => ∃ i, e = .bus i

/-- The event is a tick of the context that consumes from the queue (R320). -/
def ConsumerTick : QueueName → Event → Prop
  | .downq, e => ∃ i, e = .bus i
  | .upq, e => ∃ i, e = .control i

/-- A list of bits with the bit at position `i` inverted. -/
def flipBit (bits : List Bool) (i : Nat) : List Bool := bits.modify i (!·)

end Sys2Proof.Machine

open Sys2Proof Sys2Proof.Machine

/-! ### Family HOST -/

/-- R143, R152: a `command` write in IDLE with no reserved field, which starts no data transfer of block size
0, latches the descriptor, clears flags, response buffer, CRC16 engines and counters, and enters SEND_CMD.
That a descriptor of kind NONE starts no data transfer is log entry 8. Outside IDLE, with
`BUSY_WRITE_POLICY = drop`, the value is stored and nothing else happens. -/
def Obligations.CommandWriteIssuesFromIdle : Prop :=
  ∀ (s : State) (v : BitVec 32),
    (s.ostate = .idle → v.extractLsb' 0 2 ≠ 3 → v.extractLsb' 5 2 ≠ 3 →
      (v.extractLsb' 0 2 ≠ 0 → v.extractLsb' 5 2 ≠ 0 → s.host.blocksize ≠ 0) →
      exec (.wrCommand v) s = .next { s with
        host := { s.host with command := v }
        desc := { arg := s.host.argument, idx := v.extractLsb' 8 6,
                  kind := v.extractLsb' 0 2, dir := v.extractLsb' 5 2 }
        response := 0
        cmdf := { done := false, timeout := false, crcEn := false, crcCheck := 0 }
        dataf := { done := false, timeout := false, werr := false, crcerr := false }
        gen := { crc := 0, cnt := 0, phase := .payload }
        chk := { crc := 0, cnt := 0, phase := .payload, hi := 0 }
        blkcnt := 0
        pos := 0
        reqSent := false
        ostate := .sendCmd }) ∧
    (s.ostate ≠ .idle → s.cfg.busyWritePolicy = .drop →
      exec (.wrCommand v) s = .next { s with host := { s.host with command := v } })

/-- R123, R143, R300: in IDLE a `command` write with kind 3 or direction 3 is refused, and so is one that
starts a data transfer with `blocksize = 0`. That a descriptor of kind NONE starts none is log entry 8. -/
def Obligations.ReservedCommandWritesRefused : Prop :=
  ∀ (s : State) (v : BitVec 32), s.ostate = .idle →
    (v.extractLsb' 0 2 = 3 ∨ v.extractLsb' 5 2 = 3 →
      exec (.wrCommand v) s = .refused .reservedCommandField) ∧
    (v.extractLsb' 0 2 ≠ 3 → v.extractLsb' 5 2 ≠ 3 → v.extractLsb' 0 2 ≠ 0 → v.extractLsb' 5 2 ≠ 0 →
      s.host.blocksize = 0 → exec (.wrCommand v) s = .refused .zeroBlocksizeTransfer)

/-- R144 to R147: a write of a configuration register stores the value; in IDLE it also enters the CFG state
of its field, outside IDLE, with `BUSY_WRITE_POLICY = drop`, nothing else happens. No flag changes. -/
def Obligations.ConfigWritesStreamFromIdle : Prop :=
  ∀ s : State,
    (s.ostate = .idle →
      (∀ v, exec (.wrCmdtimeout v) s = .next { s with
        host := { s.host with cmdtimeout := v }, pos := 0, ostate := .cfgTimeoutCmd }) ∧
      (∀ v, exec (.wrDatatimeout v) s = .next { s with
        host := { s.host with datatimeout := v }, pos := 0, ostate := .cfgTimeoutData }) ∧
      (∀ v, exec (.wrVoltage v) s = .next { s with
        host := { s.host with voltage := v }, pos := 0, ostate := .cfgVoltage }) ∧
      (∀ v, exec (.wrBlocksize v) s = .next { s with
        host := { s.host with blocksize := v }, pos := 0, ostate := .cfgBlksize })) ∧
    (s.ostate ≠ .idle → s.cfg.busyWritePolicy = .drop →
      (∀ v, exec (.wrCmdtimeout v) s = .next { s with host := { s.host with cmdtimeout := v } }) ∧
      (∀ v, exec (.wrDatatimeout v) s = .next { s with host := { s.host with datatimeout := v } }) ∧
      (∀ v, exec (.wrVoltage v) s = .next { s with host := { s.host with voltage := v } }) ∧
      (∀ v, exec (.wrBlocksize v) s = .next { s with host := { s.host with blocksize := v } }))

/-- R142, R148: a write of `argument` or `blockcount` stores its value, in every state, and nothing else
happens. -/
def Obligations.WritesWithoutTriggerOnlyStore : Prop :=
  ∀ s : State,
    (∀ v, exec (.wrArgument v) s = .next { s with host := { s.host with argument := v } }) ∧
    (∀ v, exec (.wrBlockcount v) s = .next { s with host := { s.host with blockcount := v } })

/-- R149 to R151, R35: a host read returns the register as it stands and changes nothing. -/
def Obligations.HostReadsReturnAndKeep : Prop :=
  ∀ s : State,
    exec .rdResponse s = .next { s with out := { s.out with rdata := some s.response } } ∧
    exec .rdCmdevt s = .next { s with out := { s.out with rdata := some ((0#28 ++
      BitVec.ofBool (s.cmdf.crcEn && crc7Resp s.cfg s.response != s.cmdf.crcCheck) ++
      BitVec.ofBool s.cmdf.timeout ++ 0#1 ++ BitVec.ofBool s.cmdf.done).setWidth 120) } } ∧
    exec .rdDataevt s = .next { s with out := { s.out with rdata := some ((0#28 ++
      BitVec.ofBool s.dataf.crcerr ++ BitVec.ofBool s.dataf.timeout ++
      BitVec.ofBool s.dataf.werr ++ BitVec.ofBool s.dataf.done).setWidth 120) } }

/-- R153: a host read of a write-only register and a host write of a read-only register are refused, in
every state. -/
def Obligations.NonOperationsRefused : Prop :=
  ∀ (s : State) (c : CtlIn) (a : HostAccess), c.host = some a →
    ((a.we = false ∧ a.id.toNat ∈ [0, 1, 3, 4, 5, 6, 7]) ∨
     (a.we = true ∧ a.id.toNat ∈ [2, 8, 9])) →
    step (s.withEvent (.control c)) = .refused (.notAnOperation a.we a.id)

/-! ### A step runs the decoded operation -/

/-- R140: a control tick in which the host access decodes to `i` is `exec i`. In IDLE, with
`UQ_IDLE_POLICY = hold` and no deferred trigger, it is that alone; elsewhere the orchestrator's own step
from the same state goes with it (log entry 11). In IDLE with deferred triggers, an access that triggers
nothing goes with the oldest of them, which also acts on the state at the start of the tick; that it is the
oldest, and that an access that triggers goes alone, is log entry 7. -/
def Obligations.StepRunsHostOperation : Prop :=
  ∀ (s : State) (c : CtlIn) (a : HostAccess) (i : Instr),
    c.host = some a → decodeHost a = .ok i →
    (s.ostate = .idle → s.cfg.uqIdlePolicy = .hold → s.pending = [] →
      step (s.withEvent (.control c)) = exec i (ctlStart c s)) ∧
    (∀ t rest h, s.ostate = .idle → s.cfg.uqIdlePolicy = .hold → s.pending = t :: rest →
      exec i (ctlStart c s) = .next h →
      step (s.withEvent (.control c)) =
        if h.ostate = .idle then
          andThen (serviceTrigger t { ctlStart c s with pending := rest }) fun u =>
            .next { u with host := h.host, out := { u.out with rdata := h.out.rdata } }
        else .next h) ∧
    (s.ostate ≠ .idle →
      step (s.withEvent (.control c)) =
        andThen (exec i (ctlStart c s)) fun h =>
        andThen (orchTick (ctlStart c s)) fun t => .next (t.withHostOf h))

/-- R112, R223: a bus tick in which the visible head of `DOWNQ` decodes to `i` is `exec i`. -/
def Obligations.StepRunsDownOperation : Prop :=
  ∀ (s : State) (b : BusIn) (f : Frame) (i : Instr),
    s.downq.head? = some f → decodeDown s.cfg f = .ok i →
    step (s.withEvent (.bus b)) = exec i (busStart b s)

/-- R113, R170, R171: a control tick without a host access. Where the visible head of `UPQ` decodes to `i`, it
is `exec i`, together with what the state does at the producer port of `DOWNQ` where that is not IDLE; that
the two are composed in this order is log entry 11, and no order can be seen. Without a head it is the
producer port alone. In IDLE with nothing to consume it does nothing, but for the oldest deferred trigger
(log entry 7). -/
def Obligations.StepRunsUpOperation : Prop :=
  ∀ (s : State) (c : CtlIn), c.host = none →
    (∀ (f : Frame) (i : Instr), s.upq.head? = some f → decodeUp f = .ok i →
      (s.ostate = .recvResp ∨ s.ostate = .recvData →
        step (s.withEvent (.control c)) = andThen (emit (ctlStart c s)) (exec i)) ∧
      (s.ostate ≠ .recvResp → s.ostate ≠ .recvData → s.ostate ≠ .idle →
        step (s.withEvent (.control c)) = andThen (exec i (ctlStart c s)) emit) ∧
      (s.ostate = .idle → s.pending = [] →
        step (s.withEvent (.control c)) = exec i (ctlStart c s))) ∧
    (s.upq.head? = none → s.ostate ≠ .idle →
      step (s.withEvent (.control c)) = emit (ctlStart c s)) ∧
    (s.ostate = .idle → s.upq.head? = none ∨ s.cfg.uqIdlePolicy = .hold →
      (s.pending = [] → step (s.withEvent (.control c)) = .next (ctlStart c s)) ∧
      ∀ t rest, s.pending = t :: rest →
        step (s.withEvent (.control c)) = serviceTrigger t { ctlStart c s with pending := rest })

/-! ### Family FD: the configuration latch -/

/-- R225 to R235: a configuration frame writes the byte it names of the Configuration copy, keeps the others,
and is popped; bit 0 of a voltage frame is the voltage mode. This is so with the writer and the reader IDLE
and in the trailing clocks of either, the states in which a configuration frame can be at the head (R257).
What else the tick does is `LatchRunsDuringTrailingClocks`. -/
def Obligations.ConfigurationFramesLatch : Prop :=
  ∀ (s : State) (w : BitVec 2) (d : Byte) (l : Bool) (g : Frame),
    (s.writer.st = .idle ∧ s.reader.st = .idle) ∨ (s.writer.st = .cmdClk8 ∧ s.reader.st = .idle) ∨
      (s.writer.st = .idle ∧ s.reader.st = .cmdClk8) →
    s.downq.head? = some g → s.cfg.byteOrder = .lsbFirst →
    (∀ p ∈ [(Instr.fdCfgTc0 w d l, 0), (.fdCfgTc1 w d l, 1), (.fdCfgTc2 w d l, 2), (.fdCfgTc3 w d l, 3)],
      ∃ t v, exec p.1 s = .next t ∧ t.downq = s.downq.pop ∧ t.fcfg = { s.fcfg with cmdtimeout := v } ∧
        WritesByte s.fcfg.cmdtimeout v p.2 d) ∧
    (∀ p ∈ [(Instr.fdCfgTd0 w d l, 0), (.fdCfgTd1 w d l, 1), (.fdCfgTd2 w d l, 2), (.fdCfgTd3 w d l, 3)],
      ∃ t v, exec p.1 s = .next t ∧ t.downq = s.downq.pop ∧ t.fcfg = { s.fcfg with datatimeout := v } ∧
        WritesByte s.fcfg.datatimeout v p.2 d) ∧
    (∀ p ∈ [(Instr.fdCfgBs0 w d l, 0), (.fdCfgBs1 w d l, 1)],
      ∃ t v, exec p.1 s = .next t ∧ t.downq = s.downq.pop ∧ t.fcfg = { s.fcfg with blocksize := v } ∧
        WritesByte s.fcfg.blocksize v p.2 d) ∧
    ∃ t, exec (.fdCfgV w d l) s = .next t ∧ t.downq = s.downq.pop ∧
      t.fcfg = { s.fcfg with voltage := d.getLsbD 0 } ∧ t.pads.voltageSel = s.fcfg.voltage

/-- R223, R224, R241, R247: the whole tick of a configuration frame: with the writer and the reader IDLE, and
during the trailing clocks of either, which count on (log entry 14). What it writes is the same in the
three. -/
def Obligations.LatchRunsDuringTrailingClocks : Prop :=
  ∀ (s : State) (w : BitVec 2) (d : Byte) (l : Bool) (g : Frame), s.downq.head? = some g →
    ∀ i ∈ configOps w d l, ∃ r,
      exec i { s with writer := { s.writer with st := .idle }, reader := { s.reader with st := .idle } } =
        .next (afterLatch { s with
          writer := { s.writer with st := .idle }, reader := { s.reader with st := .idle } } r) ∧
      (s.writer.st = .cmdClk8 → s.reader.st = .idle →
        exec i s = .next { s with
          fcfg := r, downq := s.downq.pop, sampler := .off, pads := ClockedBit s true
          writer := if s.writer.cnt = 7 then { s.writer with st := .idle, cnt := 0 }
                    else { s.writer with cnt := s.writer.cnt + 1 } }) ∧
      (s.writer.st = .idle → s.reader.st = .cmdClk8 →
        exec i s = .next { s with
          fcfg := r, downq := s.downq.pop, sampler := .off, pads := ClockedBit s true
          reader := if s.reader.cnt = 7 then { s.reader with st := .idle, cnt := 0 }
                    else { s.reader with cnt := s.reader.cnt + 1 } })

/-- R66, R81, R108, R224: the frames a configuration state emits, latched in any order of bytes that both
ends agree on (log entry 18), leave the framer's copy of the field equal to the host register. -/
def Obligations.ConfigFieldReachesFramer : Prop :=
  ∀ (c : Config) (h : HostRegs) (r : FramerRegs), c.modes.injective = true →
    let latch := fun (f : CfgField) (r : FramerRegs) (k : Nat) =>
      match fieldFrame c h f k with
      | some fr => match c.modes.mode? fr.modeBits with
        | some m => latchByte c.byteOrder m fr.data r
        | none => r
      | none => r
    [0, 1, 2, 3].foldl (latch .cmdtimeout) r = { r with cmdtimeout := h.cmdtimeout } ∧
    [0, 1, 2, 3].foldl (latch .datatimeout) r = { r with datatimeout := h.datatimeout } ∧
    [0, 1].foldl (latch .blocksize) r = { r with blocksize := h.blocksize } ∧
    [0].foldl (latch .voltage) r = { r with voltage := h.voltage.getLsbD 0 }

/-! ### Family FD: the command writer -/

/-- R238, R244: dispatched, the writer starts with the preamble if it has not run, else with the byte; the
reader takes the request's count and marker, clears its counters, and waits for the start bit. The frame
stays at the head and the tick is not clocked. -/
def Obligations.DispatchStartsWriterOrReader : Prop :=
  ∀ (s : State) (d : Byte) (l : Bool), s.writer.st = .idle → s.reader.st = .idle →
    exec (.fdCmdWr d l) s = .next { s with
      pads := SafeIdlePads s
      sampler := .off
      writer := if s.writer.initDone then { s.writer with st := .cmdWrite, bit := 0 }
                else { s.writer with st := .init, cnt := 0 } } ∧
    exec (.fdCmdRd d l) s = .next { s with
      pads := SafeIdlePads s
      sampler := .off
      reader := { s.reader with st := .cmdReadstart, toread := d, last := l, cread := 0, timeout := 0 } }

/-- R240: in CMD_WRITE each tick drives the next bit, most significant first; the last bit pops the frame,
and the marker decides whether trailing clocks follow. -/
def Obligations.WriterShiftsMsbFirst : Prop :=
  ∀ (s : State) (b : Byte) (l : Bool), s.writer.st = .cmdWrite → s.reader.st = .idle →
    (s.writer.bit ≠ 7 →
      exec (.fdCmdWr b l) s = .next { s with
        pads := ClockedBit s (b.getLsbD (7 - s.writer.bit.toNat))
        sampler := .off
        writer := { s.writer with bit := s.writer.bit + 1 } }) ∧
    (s.writer.bit = 7 → (∃ g, s.downq.head? = some g) →
      exec (.fdCmdWr b l) s = .next { s with
        pads := ClockedBit s (b.getLsbD 0)
        sampler := .off
        downq := s.downq.pop
        writer := if l then { s.writer with st := .cmdClk8, cnt := 0, bit := 0 }
                  else { s.writer with st := .idle, bit := 0 } })

/-- R239: the preamble is 80 clocked ticks with the command line driven high and every data line driven
high; then the byte begins, and `w_init_done` is set. The frame is held. -/
def Obligations.PreambleLastsEightyClocks : Prop :=
  ∀ (s : State) (f : Frame) (inputs : List BusIn), s.cfg.modes.injective = true →
    s.writer.st = .init → s.writer.cnt = 0 → s.reader.st = .idle →
    s.downq.head? = some f → f.ctrl = tag s.cfg.modes .cmd .write .xfer → inputs.length = 80 →
    ∃ t pads, busRun inputs s = .next (t, pads) ∧
      t.writer = { st := .cmdWrite, initDone := true, cnt := 0, bit := 0 } ∧
      t.downq = s.downq ∧ t.upq = s.upq ∧
      pads = List.replicate 80
        ⟨true, some true, some (List.replicate s.cfg.dataWidth true), s.fcfg.voltage⟩

/-- R237, R63: after the preamble has run, an `FD_CMD_WR` frame at the head puts its eight bits on the
command line in eight clocked ticks, most significant first, after one unclocked tick of dispatch; it is
popped in the tick of its last bit and no up frame is produced. -/
def Obligations.CommandByteReachesTheLine : Prop :=
  ∀ (s : State) (f : Frame) (inputs : List BusIn), s.cfg.modes.injective = true →
    s.writer.st = .idle → s.writer.initDone = true → s.reader.st = .idle →
    s.downq.head? = some f → f.ctrl = tag s.cfg.modes .cmd .write .xfer → inputs.length = 9 →
    ∃ t pads, busRun inputs s = .next (t, pads) ∧
      drivenBits pads = [f.data.getLsbD 7, f.data.getLsbD 6, f.data.getLsbD 5, f.data.getLsbD 4,
        f.data.getLsbD 3, f.data.getLsbD 2, f.data.getLsbD 1, f.data.getLsbD 0] ∧
      t.downq = s.downq.pop ∧ t.upq = s.upq ∧
      t.writer.st = (if f.last then .cmdClk8 else .idle)

/-- R241, R247: the trailing clocks of the writer and of the reader are eight clocked ticks with the command
line driven high. -/
def Obligations.TrailingClocksAreEight : Prop :=
  ∀ (s : State) (inputs : List BusIn), s.downq.head? = none → inputs.length = 8 →
    ((s.writer.st = .cmdClk8 ∧ s.writer.cnt = 0 ∧ s.reader.st = .idle) ∨
     (s.reader.st = .cmdClk8 ∧ s.reader.cnt = 0 ∧ s.writer.st = .idle)) →
    ∃ t pads, busRun inputs s = .next (t, pads) ∧ drivenBits pads = List.replicate 8 true ∧
      t.writer.st = .idle ∧ t.reader.st = .idle ∧ t.downq = s.downq ∧ t.upq = s.upq

/-! ### Family FD: the command reader and the sampler -/

/-- R245, R251 to R254: one tick of CMD_READSTART. The line is released and clocked, the sampler samples, and
the start bit is tested before the count. In the tick that finds the start bit the next bit of the first byte
is shifted in already. -/
def Obligations.StartBitWaitTick : Prop :=
  ∀ (s : State) (n : Byte) (l : Bool), s.writer.st = .idle → s.reader.st = .cmdReadstart →
    ∃ x, exec (.fdCmdRd n l) s = .next { s with
      pads := { clkEn := true, cmd := none, dat := none, voltageSel := s.fcfg.voltage }
      sampler := x
      reader := if s.sampler.st = .read then { s.reader with st := .cmdRead }
                else if s.fcfg.cmdtimeout ≤ s.reader.timeout then { s.reader with st := .timeout }
                else { s.reader with timeout := s.reader.timeout + 1 } } ∧
      (s.sampler.st = .idle → x = { s.sampler with st := .readstart }) ∧
      (s.sampler.st = .readstart → s.bin.cmdI = true → x = s.sampler) ∧
      (s.sampler.st = .readstart → s.bin.cmdI = false → x = { st := .read, shift := 0, cnt := 1 }) ∧
      (s.sampler.st = .read → x = {
        st := .read
        shift := s.sampler.shift.extractLsb' 0 7 ++ BitVec.ofBool s.bin.cmdI
        cnt := s.sampler.cnt + 1 })

/-- R245, R355: with the line high throughout, the reader counts through the first `T` ticks of the wait
and gives up in tick `T + 1`, never earlier; every tick is clocked. -/
def Obligations.CommandTimeoutIsExact : Prop :=
  ∀ (s : State) (f : Frame) (inputs : List BusIn), s.cfg.modes.injective = true →
    s.writer.st = .idle → s.reader.st = .cmdReadstart → s.reader.timeout = 0 → s.sampler = .off →
    s.downq.head? = some f → f.ctrl = tag s.cfg.modes .cmd .read .xfer →
    (∀ b ∈ inputs, b.cmdI = true) →
    (inputs.length ≤ s.fcfg.cmdtimeout.toNat →
      ∃ t pads, busRun inputs s = .next (t, pads) ∧ t.reader.st = .cmdReadstart ∧
        t.reader.timeout.toNat = inputs.length ∧ t.upq = s.upq ∧ (∀ p ∈ pads, p.clkEn = true)) ∧
    (inputs.length = s.fcfg.cmdtimeout.toNat + 1 →
      ∃ t pads, busRun inputs s = .next (t, pads) ∧ t.reader.st = .timeout ∧ t.upq = s.upq ∧
        t.downq = s.downq ∧ (∀ p ∈ pads, p.clkEn = true))

/-- R248: the TIMEOUT state pushes the single frame `U{00,02,1}` when `UPQ` is ready, pops the request and
leaves; no trailing clocks, whatever the request's marker. While `UPQ` is not ready it waits. -/
def Obligations.TimeoutIsReportedOnce : Prop :=
  ∀ (s : State) (n : Byte) (l : Bool), s.writer.st = .idle → s.reader.st = .timeout →
    (s.upq.ready = true → (∃ g, s.downq.head? = some g) →
      exec (.fdCmdRd n l) s = .next { s with
        pads := SafeIdlePads s
        sampler := .off
        upq := s.upq.push { data := 0x00, ctrl := 0x02, last := true }
        downq := s.downq.pop
        reader := { s.reader with st := .idle } }) ∧
    (s.upq.ready = false →
      exec (.fdCmdRd n l) s = .next { s with pads := SafeIdlePads s, sampler := .off })

/-- R246, R249: in CMD_READ, a tick in which `UPQ` can take no frame is not clocked, and nothing moves; in any
other the sampler takes a bit. With `READLEN_BIAS = 1`, a byte completed in a tick is pushed in that tick as
`U{byte,00,last}`; `last` on the byte numbered `r_toread`, with which the request is popped. -/
def Obligations.ResponseByteIsForwarded : Prop :=
  ∀ (s : State) (n : Byte) (l : Bool), s.writer.st = .idle → s.reader.st = .cmdRead →
    let byte : Byte := s.sampler.shift.extractLsb' 0 7 ++ BitVec.ofBool s.bin.cmdI
    let pads : Pads := { clkEn := true, cmd := none, dat := none, voltageSel := s.fcfg.voltage }
    let x : Sampler := { st := .read, shift := byte, cnt := 0 }
    (s.upq.ready = false → exec (.fdCmdRd n l) s = .next { s with pads := { pads with clkEn := false } }) ∧
    (s.sampler.st = .read → s.sampler.cnt ≠ 7 → s.upq.ready = true →
      exec (.fdCmdRd n l) s = .next { s with
        pads := pads, sampler := { st := .read, shift := byte, cnt := s.sampler.cnt + 1 } }) ∧
    (s.cfg.readlenBias = 1 → s.sampler.st = .read → s.sampler.cnt = 7 → s.upq.ready = true →
      s.reader.cread ≠ s.reader.toread →
      exec (.fdCmdRd n l) s = .next { s with
        pads := pads, sampler := x
        upq := s.upq.push { data := byte, ctrl := 0x00, last := false }
        reader := { s.reader with cread := s.reader.cread + 1 } }) ∧
    (s.cfg.readlenBias = 1 → s.sampler.st = .read → s.sampler.cnt = 7 → s.upq.ready = true →
      s.reader.cread = s.reader.toread → (∃ g, s.downq.head? = some g) →
      exec (.fdCmdRd n l) s = .next { s with
        pads := pads, sampler := x
        upq := s.upq.push { data := byte, ctrl := 0x00, last := true }
        downq := s.downq.pop
        reader := if s.reader.last then { s.reader with st := .cmdClk8, cnt := 0 }
                  else { s.reader with st := .idle } })

/-- R63, R253: eight bits on the line in eight ticks of CMD_READ, most significant first, become one byte,
and one up frame. -/
def Obligations.LineBitsBecomeResponseByte : Prop :=
  ∀ (s : State) (f : Frame) (byte : Byte) (inputs : List BusIn), s.cfg.modes.injective = true →
    s.writer.st = .idle → s.reader.st = .cmdRead → s.reader.lastByte s.cfg = false →
    s.sampler.st = .read → s.sampler.cnt = 0 → s.upq.ready = true →
    s.downq.head? = some f → f.ctrl = tag s.cfg.modes .cmd .read .xfer →
    inputs.map BusIn.cmdI = [byte.getLsbD 7, byte.getLsbD 6, byte.getLsbD 5, byte.getLsbD 4,
      byte.getLsbD 3, byte.getLsbD 2, byte.getLsbD 1, byte.getLsbD 0] →
    ∃ t pads, busRun inputs s = .next (t, pads) ∧
      t.upq = s.upq.push { data := byte, ctrl := 0x00, last := false } ∧
      t.downq = s.downq ∧ t.reader = { s.reader with cread := s.reader.cread + 1 } ∧
      t.sampler = { st := .read, shift := byte, cnt := 0 } ∧ (∀ p ∈ pads, p.clkEn = true)

/-! ### Family FD: DATAPATH -/

/-- R262, R264, R265: with the writer and the reader IDLE, a read request is DATAPATH's. When `UPQ` is ready
it may push the next byte, the byte numbered `f_blocksize + 2` with `last` and with the request popped, or
the TIMEOUT report with the request popped; otherwise it waits, and a choice that is none for a read request
is a wait. What a tick's choice is, and what the data lines are, is log entry 6. -/
def Obligations.DatapathServesReadRequest : Prop :=
  ∀ (s : State) (d : Byte) (l : Bool), s.writer.st = .idle → s.reader.st = .idle →
    let pads : Pads := ⟨s.bin.dpClkEn, some true, s.bin.dpDat.map (dataLines s.cfg), s.fcfg.voltage⟩
    (s.upq.ready = false ∨ s.bin.dp = .wait ∨ s.bin.dp = .take ∨ (∃ a p, s.bin.dp = .ack a p) →
      exec (.fdDataRd d l) s = .next { s with pads := pads, sampler := .off }) ∧
    (∀ b, s.upq.ready = true → s.bin.dp = .deliver b →
      s.datapath.sent + 1 < s.fcfg.blocksize.toNat + 2 →
      exec (.fdDataRd d l) s = .next { s with
        pads := pads, sampler := .off
        upq := s.upq.push { data := b, ctrl := 0x01, last := false }
        datapath := { s.datapath with sent := s.datapath.sent + 1 } }) ∧
    (∀ b, s.upq.ready = true → s.bin.dp = .deliver b →
      s.datapath.sent + 1 = s.fcfg.blocksize.toNat + 2 → (∃ g, s.downq.head? = some g) →
      exec (.fdDataRd d l) s = .next { s with
        pads := pads, sampler := .off
        upq := s.upq.push { data := b, ctrl := 0x01, last := true }
        downq := s.downq.pop
        datapath := { sent := 0, acked := false } }) ∧
    (s.upq.ready = true → s.bin.dp = .timeout → (∃ g, s.downq.head? = some g) →
      exec (.fdDataRd d l) s = .next { s with
        pads := pads, sampler := .off
        upq := s.upq.push { data := 0x00, ctrl := 0x03, last := true }
        downq := s.downq.pop
        datapath := { sent := 0, acked := false } })

/-- R263, R265: with the writer and the reader IDLE, a byte of a write block is DATAPATH's: it takes and pops
it; for the last byte of a block it first, or in the same tick, pushes one acknowledgement with payload 00
and `last = 0`. It pushes no second one, none for another byte, and none while `UPQ` is not ready: those
choices, a pop before the acknowledgement, and the choices of a read request are waits. What a tick's choice
is, and that the others are waits, is log entry 6. -/
def Obligations.DatapathServesWriteByte : Prop :=
  ∀ (s : State) (d : Byte) (l : Bool), s.writer.st = .idle → s.reader.st = .idle →
    (∃ g, s.downq.head? = some g) →
    let pads : Pads := ⟨s.bin.dpClkEn, some true, s.bin.dpDat.map (dataLines s.cfg), s.fcfg.voltage⟩
    (s.bin.dp = .take → (l = false ∨ s.datapath.acked = true) →
      exec (.fdDataWr d l) s = .next { s with
        pads := pads, sampler := .off, downq := s.downq.pop
        datapath := { sent := 0, acked := false } }) ∧
    ((s.bin.dp = .take ∧ l = true ∧ s.datapath.acked = false) ∨
      (∃ st p, s.bin.dp = .ack st p ∧ (l = false ∨ s.datapath.acked = true ∨ s.upq.ready = false)) ∨
      s.bin.dp = .wait ∨ s.bin.dp = .timeout ∨ (∃ b, s.bin.dp = .deliver b) →
      exec (.fdDataWr d l) s = .next { s with pads := pads, sampler := .off }) ∧
    (∀ st : BitVec 4, s.bin.dp = .ack st true → l = true → s.datapath.acked = false → s.upq.ready = true →
      exec (.fdDataWr d l) s = .next { s with
        pads := pads, sampler := .off
        upq := s.upq.push { data := 0x00, ctrl := 0#3 ++ st ++ 1#1, last := false }
        downq := s.downq.pop
        datapath := { sent := 0, acked := false } }) ∧
    (∀ st : BitVec 4, s.bin.dp = .ack st false → l = true → s.datapath.acked = false → s.upq.ready = true →
      exec (.fdDataWr d l) s = .next { s with
        pads := pads, sampler := .off
        upq := s.upq.push { data := 0x00, ctrl := 0#3 ++ st ++ 1#1, last := false }
        datapath := { s.datapath with acked := true } })

/-- R223, R257: while the writer or the reader is out of IDLE, an XFER frame at the head starts nothing: the
tick is the one the machine out of IDLE makes, whatever XFER operation is at the head. -/
def Obligations.BusyFramerStartsNothing : Prop :=
  ∀ (s : State) (d : Byte) (l : Bool),
    (s.writer.st = .idle → s.reader.st = .cmdClk8 →
      ∀ i ∈ [Instr.fdCmdRd d l, .fdCmdWr d l, .fdDataRd d l, .fdDataWr d l],
        exec i s = .next { s with
          sampler := .off, pads := ClockedBit s true
          reader := if s.reader.cnt = 7 then { s.reader with st := .idle, cnt := 0 }
                    else { s.reader with cnt := s.reader.cnt + 1 } }) ∧
    (s.writer.st = .cmdClk8 → s.reader.st = .idle →
      ∀ i ∈ [Instr.fdCmdRd d l, .fdCmdWr d l, .fdDataRd d l, .fdDataWr d l],
        exec i s = .next { s with
          sampler := .off, pads := ClockedBit s true
          writer := if s.writer.cnt = 7 then { s.writer with st := .idle, cnt := 0 }
                    else { s.writer with cnt := s.writer.cnt + 1 } })

/-! ### Family FU -/

/-- R188, R196: a TIMEOUT frame, whatever its channel, payload and marker, returns to IDLE. In RECV_RESP it
latches `cmd_timeout` and `data_done`; in RECV_DATA it latches `data_timeout` and clears the block counter.
The done flag of the timeout's own register is set only with `DONE_ON_TIMEOUT` (log entry 20). -/
def Obligations.TimeoutReturnsToIdle : Prop :=
  ∀ (s : State) (r : BitVec 3) (d : Byte) (l : Bool), (∃ g, s.upq.head? = some g) →
    (s.ostate = .recvResp → ∀ i ∈ timeoutOps r d l, exec i s = .next { s with
      upq := s.upq.pop
      cmdf := { s.cmdf with timeout := true, done := s.cmdf.done || s.cfg.doneOnTimeout }
      dataf := { s.dataf with done := true }
      ostate := .idle }) ∧
    (s.ostate = .recvData → ∀ i ∈ timeoutOps r d l, exec i s = .next { s with
      upq := s.upq.pop
      dataf := { s.dataf with timeout := true, done := s.dataf.done || s.cfg.doneOnTimeout }
      blkcnt := 0
      ostate := .idle })

/-- R190, R183: in RECV_RESP a frame of any other status without the marker shifts its byte into the
response buffer. -/
def Obligations.ResponseByteShiftsIn : Prop :=
  ∀ (s : State) (r : BitVec 3) (d : Byte), s.ostate = .recvResp → (∃ g, s.upq.head? = some g) →
    TakesByte s r d false (.next { s with
      upq := s.upq.pop
      response := s.response.extractLsb' 0 112 ++ d })

/-- R189, R191, R183: in RECV_RESP a frame of any other status with the marker takes the check value, marks
the command done, and branches by the data direction. -/
def Obligations.FinalResponseByteBranches : Prop :=
  ∀ (s : State) (r : BitVec 3) (d : Byte), s.ostate = .recvResp → (∃ g, s.upq.head? = some g) →
    (s.desc.dir = 1 → TakesByte s r d true (.next { s with
      upq := s.upq.pop
      cmdf := { s.cmdf with crcCheck := d.extractLsb' 1 7, crcEn := true, done := true }
      reqSent := false
      ostate := .recvData })) ∧
    (s.desc.dir = 2 → TakesByte s r d true (.next { s with
      upq := s.upq.pop
      cmdf := { s.cmdf with crcCheck := d.extractLsb' 1 7, crcEn := true, done := true }
      ostate := .sendData })) ∧
    (s.desc.dir = 0 → TakesByte s r d true (.next { s with
      upq := s.upq.pop
      cmdf := { s.cmdf with crcCheck := d.extractLsb' 1 7, crcEn := true, done := true }
      dataf := { s.dataf with done := true }
      ostate := .idle }))

/-- R193, R194, R295: in RECV_DATA a byte with status OK and no marker, the checker in its PAYLOAD phase: with
`do_ready` it goes to the data-out stream and into the CRC, and is counted; without, it stays in `UPQ`. -/
def Obligations.PayloadByteReachesSink : Prop :=
  ∀ (s : State) (r : BitVec 3) (d : Byte), s.ostate = .recvData → (∃ g, s.upq.head? = some g) →
    s.chk.phase = .payload →
    ∀ i ∈ okOps r d false,
      (s.cin.doReady = false → exec i s = .next s) ∧
      (s.cin.doReady = true → s.chk.cnt.toNat + 1 ≠ s.host.blocksize.toNat →
        exec i s = .next { s with
          upq := s.upq.pop
          out := { s.out with dout := some (d, false) }
          chk := { s.chk with crc := crc16Update s.cfg.crc16Poly s.chk.crc d, cnt := s.chk.cnt + 1 } }) ∧
      (s.cin.doReady = true → s.chk.cnt.toNat + 1 = s.host.blocksize.toNat →
        exec i s = .next { s with
          upq := s.upq.pop
          out := { s.out with dout := some (d, true) }
          chk := { s.chk with
            crc := crc16Update s.cfg.crc16Poly s.chk.crc d, cnt := 0, phase := .crcHi } })

/-- R296, R197: in RECV_DATA the two trailer bytes go nowhere but into the check; the second raises
`data_crcerr` on a mismatch and, with the marker, ends the block: the last block ends the cycle, any other
is counted and asked for again. -/
def Obligations.TrailerBytesEndTheBlock : Prop :=
  ∀ (s : State) (r : BitVec 3) (d : Byte), s.ostate = .recvData → (∃ g, s.upq.head? = some g) →
    (s.chk.phase = .crcHi → ∀ i ∈ okOps r d false, exec i s = .next { s with
      upq := s.upq.pop, chk := { s.chk with hi := d, phase := .crcLo } }) ∧
    (s.chk.phase = .crcLo → s.blkcnt ≠ s.host.blockcount → ∀ i ∈ okOps r d true,
      exec i s = .next { s with
        upq := s.upq.pop
        chk := { s.chk with phase := .payload, crc := 0 }
        dataf := { s.dataf with crcerr := s.dataf.crcerr || s.chk.hi ++ d != s.chk.crc }
        blkcnt := s.blkcnt + 1
        reqSent := false }) ∧
    (s.chk.phase = .crcLo → s.blkcnt = s.host.blockcount → ∀ i ∈ okOps r d true,
      exec i s = .next { s with
        upq := s.upq.pop
        chk := { s.chk with phase := .payload, crc := 0 }
        dataf := { s.dataf with crcerr := s.dataf.crcerr || s.chk.hi ++ d != s.chk.crc, done := true }
        blkcnt := 0
        ostate := .idle })

/-- R195, R197: in RECV_DATA a frame whose status is neither OK nor TIMEOUT is dropped: the checker does not
take it; with the marker it ends the block all the same. -/
def Obligations.OtherStatusDropsTheByte : Prop :=
  ∀ (s : State) (r : BitVec 3) (d : Byte), s.ostate = .recvData → (∃ g, s.upq.head? = some g) →
    (∀ i ∈ ackOps r d false, exec i s = .next { s with upq := s.upq.pop }) ∧
    (s.blkcnt ≠ s.host.blockcount → ∀ i ∈ ackOps r d true, exec i s = .next { s with
      upq := s.upq.pop, blkcnt := s.blkcnt + 1, reqSent := false }) ∧
    (s.blkcnt = s.host.blockcount → ∀ i ∈ ackOps r d true, exec i s = .next { s with
      upq := s.upq.pop, dataf := { s.dataf with done := true }, blkcnt := 0, ostate := .idle })

/-- R200: in SEND_DATA every popped frame is inspected: a status other than DATA_ACCEPTED latches
`data_werr`, and nothing else changes. -/
def Obligations.AcknowledgementsAreInspected : Prop :=
  ∀ (s : State) (r : BitVec 3) (d : Byte) (l : Bool), s.ostate = .sendData →
    (∃ g, s.upq.head? = some g) →
    exec (.fuDataAccepted r d l) s = .next { s with upq := s.upq.pop } ∧
    ∀ i ∈ [Instr.fuCmdOk r d l, .fuDataOk r d l, .fuCmdTimeout r d l, .fuDataTimeout r d l,
           .fuDataCrcerr r d l, .fuDataWrerr r d l],
      exec i s = .next { s with upq := s.upq.pop, dataf := { s.dataf with werr := true } }

/-- R171, R172, R177: a state that consumes none leaves an up frame where it is; with
`UQ_IDLE_POLICY = drain`, IDLE pops and discards it (R394; log entry 21). -/
def Obligations.UpFramesWaitOutsideConsumingStates : Prop :=
  ∀ (s : State) (r : BitVec 3) (d : Byte) (l : Bool),
    (ConsumesNone s → ∀ i ∈ byteOps r d l ++ timeoutOps r d l, exec i s = .next s) ∧
    (s.ostate = .idle → s.cfg.uqIdlePolicy = .drain → (∃ g, s.upq.head? = some g) →
      ∀ i ∈ byteOps r d l ++ timeoutOps r d l, exec i s = .next { s with upq := s.upq.pop })

/-- R122, R183, R195, R200: an up frame whose tag is no operation of the map is treated by its status alone:
as OK in RECV_RESP, as a byte that is dropped in RECV_DATA, as an error in SEND_DATA, except the status
DATA_ACCEPTED, which is none whatever the channel. -/
def Obligations.UnnamedStatusesAreDefined : Prop :=
  ∀ (s : State) (f : Frame) (e : FrameError), s.upq.head? = some f → decodeUp f = .error e →
    (s.ostate = .recvResp → consume s = exec (.fuCmdOk 0 f.data f.last) s) ∧
    (s.ostate = .recvData → consume s = exec (.fuDataCrcerr 0 f.data f.last) s) ∧
    (s.ostate = .sendData → f.status ≠ 2 → consume s = exec (.fuDataWrerr 0 f.data f.last) s) ∧
    (s.ostate = .sendData → f.status = 2 → consume s = exec (.fuDataAccepted 0 f.data f.last) s)

/-! ### The orchestrator at `DOWNQ` -/

/-- R172 to R176: a tick of a CFG state with `DOWNQ` ready pushes the byte `pos` of the field with its mode;
the last byte, with the marker, returns to IDLE. While `DOWNQ` is not ready the state waits. -/
def Obligations.ConfigStateStreamsField : Prop :=
  ∀ (s : State) (c : CtlIn) (k : Nat), c.host = none →
    s.cfg.byteOrder = .lsbFirst → s.cfg.modes = .listOrder → s.pos.toNat = k →
    ∀ p ∈ [(OState.cfgTimeoutCmd, 4, 0x06#8, s.host.cmdtimeout),
           (OState.cfgTimeoutData, 4, 0x16#8, s.host.datatimeout),
           (OState.cfgBlksize, 2, 0x26#8, s.host.blocksize.setWidth 32),
           (OState.cfgVoltage, 1, 0x2E#8, s.host.voltage.setWidth 32)],
      s.ostate = p.1 → k < p.2.1 →
      (s.downq.ready = true → step (s.withEvent (.control c)) = .next { ctlStart c s with
        downq := s.downq.push {
          data := p.2.2.2.extractLsb' (8 * k) 8
          ctrl := p.2.2.1 + 4 * BitVec.ofNat 8 k
          last := decide (k + 1 = p.2.1) }
        pos := if k + 1 = p.2.1 then 0 else s.pos + 1
        ostate := if k + 1 = p.2.1 then .idle else p.1 }) ∧
      (s.downq.ready = false → step (s.withEvent (.control c)) = .next (ctlStart c s))

/-- R177, R178, R109: a tick of SEND_CMD with `DOWNQ` ready pushes byte `pos` of the command; after the
sixth the cycle is over if the kind is NONE, and RECV_RESP begins if it is not. While `DOWNQ` is not ready
the state waits. -/
def Obligations.CommandBytesAreEmitted : Prop :=
  ∀ (s : State) (c : CtlIn) (k : Nat), c.host = none →
    s.cfg.modes = .listOrder → s.ostate = .sendCmd → s.pos.toNat = k → k ≤ 5 →
    (s.downq.ready = false → step (s.withEvent (.control c)) = .next (ctlStart c s)) ∧
    ∀ b : Byte, s.downq.ready = true →
    ([0b01#2 ++ s.desc.idx, s.desc.arg.extractLsb' 24 8, s.desc.arg.extractLsb' 16 8,
      s.desc.arg.extractLsb' 8 8, s.desc.arg.extractLsb' 0 8,
      crc7Cmd s.cfg s.desc.idx s.desc.arg ++ 1#1] : List Byte)[k]? = some b →
    (k < 5 → step (s.withEvent (.control c)) = .next { ctlStart c s with
      downq := s.downq.push { data := b, ctrl := 0x02, last := false }
      pos := s.pos + 1 }) ∧
    (k = 5 → s.desc.kind = 0 → step (s.withEvent (.control c)) = .next { ctlStart c s with
      downq := s.downq.push { data := b, ctrl := 0x02, last := true }
      pos := 0
      cmdf := { s.cmdf with done := true }
      dataf := { s.dataf with done := true }
      ostate := .idle }) ∧
    (k = 5 → s.desc.kind ≠ 0 → step (s.withEvent (.control c)) = .next { ctlStart c s with
      downq := s.downq.push { data := b, ctrl := 0x02, last := false }
      pos := 0
      reqSent := false
      ostate := .recvResp })

/-- R180, R192: RECV_RESP asks once for 6 or 17 bytes, RECV_DATA once for a block; the marker says that no
data phase follows, or that the block is the final one. -/
def Obligations.RequestsAreSentOnce : Prop :=
  ∀ (s : State) (c : CtlIn), c.host = none → s.upq.head? = none → s.cfg.modes = .listOrder →
    s.cfg.readlenBias = 1 →
    (s.ostate = .recvResp → s.downq.ready = true → s.reqSent = false →
      step (s.withEvent (.control c)) = .next { ctlStart c s with
        downq := s.downq.push {
          data := if s.desc.kind = 1 then 0x05 else 0x10
          ctrl := 0x00
          last := decide (s.desc.dir = 0) }
        reqSent := true }) ∧
    (s.ostate = .recvData → s.downq.ready = true → s.reqSent = false →
      step (s.withEvent (.control c)) = .next { ctlStart c s with
        downq := s.downq.push {
          data := 0x00, ctrl := 0x01, last := decide (s.blkcnt = s.host.blockcount) }
        reqSent := true }) ∧
    (s.ostate = .recvResp ∨ s.ostate = .recvData → s.downq.ready = false ∨ s.reqSent = true →
      step (s.withEvent (.control c)) = .next (ctlStart c s))

/-- R198, R199, R204, R292, R293: SEND_DATA with `DOWNQ` ready: a payload byte of the data-in stream goes down
and into the CRC; then the two trailer bytes, high byte first, the second with the marker, which ends the
block. Without a byte from DATA_SRC, or while `DOWNQ` is not ready, nothing is pushed and the generator keeps
its state; in the second case `di_ready = 0`. -/
def Obligations.WriteBlockIsEmitted : Prop :=
  ∀ (s : State) (c : CtlIn), c.host = none → s.upq.head? = none → s.cfg.modes = .listOrder →
    s.ostate = .sendData →
    (s.downq.ready = false → step (s.withEvent (.control c)) = .next { ctlStart c s with
      out := { rdata := none, diReady := false, dout := none } }) ∧
    (∀ b, s.downq.ready = true → s.gen.phase = .payload → c.di = some b →
      step (s.withEvent (.control c)) = .next { ctlStart c s with
        out := { rdata := none, diReady := true, dout := none }
        downq := s.downq.push { data := b, ctrl := 0x03, last := false }
        gen := if s.gen.cnt.toNat + 1 = s.host.blocksize.toNat then
            { crc := crc16Update s.cfg.crc16Poly s.gen.crc b, cnt := 0, phase := .crcHi }
          else
            { crc := crc16Update s.cfg.crc16Poly s.gen.crc b, cnt := s.gen.cnt + 1, phase := .payload } }) ∧
    (s.downq.ready = true → s.gen.phase = .payload → c.di = none →
      step (s.withEvent (.control c)) = .next { ctlStart c s with
        out := { rdata := none, diReady := true, dout := none } }) ∧
    (s.downq.ready = true → s.gen.phase = .crcHi →
      step (s.withEvent (.control c)) = .next { ctlStart c s with
        downq := s.downq.push { data := s.gen.crc.extractLsb' 8 8, ctrl := 0x03, last := false }
        gen := { s.gen with phase := .crcLo } }) ∧
    (s.downq.ready = true → s.gen.phase = .crcLo → s.blkcnt ≠ s.host.blockcount →
      step (s.withEvent (.control c)) = .next { ctlStart c s with
        downq := s.downq.push { data := s.gen.crc.extractLsb' 0 8, ctrl := 0x03, last := true }
        gen := { s.gen with phase := .payload, crc := 0 }
        blkcnt := s.blkcnt + 1 }) ∧
    (s.downq.ready = true → s.gen.phase = .crcLo → s.blkcnt = s.host.blockcount →
      step (s.withEvent (.control c)) = .next { ctlStart c s with
        downq := s.downq.push { data := s.gen.crc.extractLsb' 0 8, ctrl := 0x03, last := true }
        gen := { s.gen with phase := .payload, crc := 0 }
        blkcnt := 0
        dataf := { s.dataf with done := true }
        ostate := .idle })

/-! ### CRC engines -/

/-- R282: `crc7` is linear, ignores leading zero bits, is 0 of a sequence followed by its own CRC, and every
change of a single bit changes it. -/
def Obligations.Crc7Properties : Prop :=
  ∀ bits : List Bool,
    (∀ other : List Bool, other.length = bits.length →
      crc7 0x09 (List.zipWith xor bits other) = crc7 0x09 bits ^^^ crc7 0x09 other) ∧
    (∀ n, crc7 0x09 (List.replicate n false ++ bits) = crc7 0x09 bits) ∧
    crc7 0x09 (bits ++ bitsMsbFirst (crc7 0x09 bits) 7) = 0 ∧
    (∀ i, i < bits.length → crc7 0x09 (flipBit bits i) ≠ crc7 0x09 bits)

/-- R285, R289, R291: worked values of the CRC7 generator, of the CRC7 checker, and of CRC16. -/
def Obligations.CrcWorkedValues : Prop :=
  crc7Cmd .default 0 0 = 0x4A ∧ crc7Cmd .default 8 0x000001AA = 0x43 ∧ crc7Cmd .default 17 0 = 0x2A ∧
  crc7Cmd .default 55 0 = 0x32 ∧ crc7Cmd .default 41 0x40100000 = 0x66 ∧
  crc7Cmd .default 63 0xFFFFFFFF = 0x0C ∧
  crc7Resp .default 0x08000001AA = 0x09 ∧ crc7Resp .default 0x08000001AB = 0x00 ∧
  crc7Resp .default 0x1100000900 = 0x33 ∧
  crc7Resp .default 0x035344534331364780123456780123 = 0x4B ∧
  crc16Update 0x1021 0 0x01 = 0x1021 ∧ crc16Update 0x1021 0 0x80 = 0x9188 ∧
  crc16Update 0x1021 0 0xFF = 0x1EF0 ∧
  crc16 0x1021 [0x31, 0x32, 0x33, 0x34, 0x35, 0x36, 0x37, 0x38, 0x39] = 0x31C3 ∧
  crc16 0x1021 [0xDE] = 0x2AB3 ∧ crc16 0x1021 [0xDE, 0xAD] = 0x526F ∧
  crc16 0x1021 [0xDE, 0xAD, 0xBE] = 0x53A2 ∧ crc16 0x1021 [0xDE, 0xAD, 0xBE, 0xEF] = 0xC457 ∧
  crc16 0x1021 [1, 2] = 0x1373 ∧ crc16 0x1021 [1, 2, 3] = 0x6131 ∧ crc16 0x1021 [1, 2, 3, 4] = 0x0D03

/-- R292, R293, R295, R296, R298: the bytes that the generator gives for a block, taken by the checker from
its reset state, are reported valid whatever the polynomial, and the payload is what the checker checked:
any other trailer is reported. -/
def Obligations.GeneratorCheckerRoundTrip : Prop :=
  ∀ (s : State) (payload : List Byte) (hi lo : Byte), payload ≠ [] →
    payload.length = s.host.blocksize.toNat → s.chk = .cleared → s.dataf.crcerr = false →
    let g := (generatorRun s.cfg s.host.blocksize .cleared payload).1
    g.phase = .crcHi ∧ g.crc = crc16 s.cfg.crc16Poly payload ∧
    (checkerRun (payload ++ [g.crc.extractLsb' 8 8, g.crc.extractLsb' 0 8]) s).dataf = s.dataf ∧
    ((checkerRun (payload ++ [hi, lo]) s).dataf.crcerr = true ↔ hi ++ lo ≠ g.crc) ∧
    (checkerRun (payload ++ [hi, lo]) s).chk.phase = .payload ∧
    (checkerRun (payload ++ [hi, lo]) s).chk.crc = 0 ∧
    (checkerRun (payload ++ [hi, lo]) s).chk.cnt = 0

/-- R298: with the SD polynomial, any single-bit corruption of a block, payload or trailer, is reported. -/
def Obligations.SingleBitCorruptionIsReported : Prop :=
  ∀ (s : State) (payload block : List Byte) (i : Nat), s.cfg.crc16Poly = 0x1021 → payload ≠ [] →
    payload.length = s.host.blocksize.toNat → s.chk = .cleared →
    block.length = payload.length + 2 → i < 8 * block.length →
    block.flatMap (bitsMsbFirst · 8) = flipBit
      ((payload ++ [(crc16 0x1021 payload).extractLsb' 8 8,
                    (crc16 0x1021 payload).extractLsb' 0 8]).flatMap (bitsMsbFirst · 8)) i →
    (checkerRun block s).dataf.crcerr = true

/-! ### Encoding -/

/-- R91, R111: sample words, written out from the encodings of the spec. -/
def Obligations.SampleWordsDecode : Prop :=
  decodeHost { we := true, id := 1, value := 0x0801 } = .ok (.wrCommand 0x0801) ∧
  decodeHost { we := true, id := 5, value := 0x1FE } = .ok (.wrVoltage 0xFE) ∧
  decodeHost { we := false, id := 8, value := 0 } = .ok .rdCmdevt ∧
  decodeDown .default (.ofWord 0b1_00000010_10010101) = .ok (.fdCmdWr 0x95 true) ∧
  decodeDown .default (.ofWord 0b0_00000000_00000101) = .ok (.fdCmdRd 0x05 false) ∧
  decodeDown .default (.ofWord 0b1_00000001_00000000) = .ok (.fdDataRd 0x00 true) ∧
  decodeDown .default (.ofWord 0b0_00000011_10100001) = .ok (.fdDataWr 0xA1 false) ∧
  decodeDown .default (.ofWord 0b1_00010010_10000000) = .ok (.fdCfgTc3 2 0x80 true) ∧
  decodeDown .default (.ofWord 0b1_00000101_00010001) = .ok (.fdCfgTc0 1 0x11 true) ∧
  decodeUp (.ofWord 0b1_00000000_00010011) = .ok (.fuCmdOk 0 0x13 true) ∧
  decodeUp (.ofWord 0b1_00000011_00000000) = .ok (.fuDataTimeout 0 0x00 true) ∧
  decodeUp (.ofWord 0b0_00001011_00000000) = .ok (.fuDataCrcerr 0 0x00 false)

/-- Decoding the word of an operation gives it back, with every operand at every value, whatever the mode
encoding. -/
def Obligations.DecodeOfEncode : Prop :=
  ∀ (c : Config) (i : Instr), c.modes.injective = true → decode c (encode c i) = .ok i

/-- A frame that decodes to an operation is the word of that operation: no two frames of one port decode
to the same operation, and no bit of a frame is dropped. -/
def Obligations.EncodeOfDecodedFrame : Prop :=
  ∀ (c : Config) (f : Frame) (i : Instr),
    (decode c (.down f) = .ok i → encode c i = .down f) ∧
    (decode c (.up f) = .ok i → encode c i = .up f)

/-- R121, R236: a down frame decodes to no operation exactly if its mode is not one of the twelve; a bus tick
then pops it and the framer's copy is not written (where U1 would rather refuse: log entry 12). -/
def Obligations.ReservedModesAreDiscarded : Prop :=
  ∀ (s : State) (b : BusIn) (f : Frame), s.downq.head? = some f →
    ((∃ e, decodeDown s.cfg f = .error e) ↔ ∀ m, s.cfg.modes.code m ≠ f.ctrl.extractLsb' 2 6) ∧
    ((∀ m, s.cfg.modes.code m ≠ f.ctrl.extractLsb' 2 6) → s.writer.st = .idle → s.reader.st = .idle →
      step (s.withEvent (.bus b)) = .next { busStart b s with
        downq := s.downq.pop, pads := SafeIdlePads s, sampler := .off })

/-! ### Reset, queues, and the whole machine -/

/-- R53, R330, R380: every element after reset, with the default parameters. -/
def Obligations.ResetValues : Prop :=
  let s := State.reset
  s.host = { argument := 0, command := 0, cmdtimeout := 0, datatimeout := 0, voltage := 0,
             blocksize := 0, blockcount := 0 } ∧
  s.desc = { arg := 0, idx := 0, kind := 0, dir := 0 } ∧ s.response = 0 ∧
  s.cmdf = { done := false, timeout := false, crcEn := false, crcCheck := 0 } ∧ cmdevt s = 0 ∧
  s.dataf = { done := false, timeout := false, werr := false, crcerr := false } ∧ dataevt s = 0 ∧
  s.ostate = .idle ∧ s.pos = 0 ∧ s.reqSent = false ∧ s.blkcnt = 0 ∧
  s.gen = { crc := 0, cnt := 0, phase := .payload } ∧
  s.chk = { crc := 0, cnt := 0, phase := .payload, hi := 0 } ∧
  s.downq = { items := [], vis := 0, cred := 2 } ∧ s.upq = { items := [], vis := 0, cred := 2 } ∧
  s.fcfg = { cmdtimeout := 0, datatimeout := 0, blocksize := 0, voltage := false } ∧
  s.writer = { st := .idle, initDone := false, cnt := 0, bit := 0 } ∧
  s.reader = { st := .idle, toread := 0, last := false, cread := 0, timeout := 0, cnt := 0 } ∧
  s.sampler = { st := .idle, shift := 0, cnt := 0 } ∧
  s.pads = { clkEn := false, cmd := some true, dat := none, voltageSel := false }

/-- R380, R381: reset, in any state, puts every element of the block at its reset value. What is left of the
state before is what is no state of the block: its parameters, the events still listed and the step count
(log entry 26). -/
def Obligations.ResetReachesEverything : Prop :=
  ∀ s : State,
    step (s.withEvent .reset) = .next (State.resetWith s.cfg s.env (s.time + 1)) ∧
    (∀ t : State, t.cfg = s.cfg → t.env = s.env → t.time = s.time →
      step (t.withEvent .reset) = step (s.withEvent .reset))

/-- R322, R323, R325, R326: whatever a step does other than reset, each queue stays as it is, or a tick of its
producer takes a credit and puts one frame at the tail, or a tick of its consumer takes the oldest frame, a
visible one, or a step of its lag shows one more frame that is there, or one more place that is free: never
early. No step does two of these to one queue. A lag step that is enabled does what it says. -/
def Obligations.FramesKeepTheirOrder : Prop :=
  (∀ s t : State, Inv s → nextEvent s ≠ .reset → step s = .next t → ∀ q,
    let e := nextEvent s
    let a := s.queue q
    let b := t.queue q
    b = a ∨
    (ProducerTick q e ∧ 0 < a.cred ∧
      ∃ f, b = { items := a.items ++ [f], vis := a.vis, cred := a.cred - 1 }) ∨
    (ConsumerTick q e ∧ 0 < a.vis ∧
      ∃ f rest, a.items = f :: rest ∧ b = { items := rest, vis := a.vis - 1, cred := a.cred }) ∨
    (e = .syncVis q ∧ a.vis < a.items.length ∧ b = { a with vis := a.vis + 1 }) ∨
    (e = .syncCred q ∧ a.cred < 2 - a.items.length ∧ b = { a with cred := a.cred + 1 })) ∧
  ∀ (s : State) (q : QueueName),
    ((s.queue q).vis < (s.queue q).items.length → ∃ t, step (s.withEvent (.syncVis q)) = .next t ∧
      t.queue q = { s.queue q with vis := (s.queue q).vis + 1 }) ∧
    ((s.queue q).cred < 2 - (s.queue q).items.length → ∃ t, step (s.withEvent (.syncCred q)) = .next t ∧
      t.queue q = { s.queue q with cred := (s.queue q).cred + 1 })

/-- R326, R331: in a fair run without a reset, from a state that meets the invariant, no frame and no free
place stays hidden for ever: a queue that holds a frame comes to show one to its consumer, and a queue with a
free place comes to show one to its producer. And `DOWNQ` always drains, provided `UPQ` is eventually ready when
the reader or DATAPATH needs it: whenever `DOWNQ` holds a frame, its oldest frame is popped sooner or later,
with `READLEN_BIAS = 1`, under which the reader comes to the end of every request (R246). That a run is fair
is a hypothesis (log entry 23). -/
def Obligations.FairRunsMakeProgress : Prop :=
  ∀ (e : Nat → Event) (σ : Nat → State), FairRun e σ → Inv (σ 0) →
    (∀ q n, ((σ n).queue q).items ≠ [] → ∃ m, n ≤ m ∧ ((σ m).queue q).valid = true) ∧
    (∀ q n, ((σ n).queue q).items.length < 2 → ∃ m, n ≤ m ∧ ((σ m).queue q).ready = true) ∧
    ((σ 0).cfg.readlenBias = 1 → UpqServes σ →
      ∀ n, (σ n).downq.items ≠ [] → ∃ m, n ≤ m ∧ Pops σ .downq m)

/-- R20: a control tick changes nothing that the bus side owns and a bus tick nothing that the control side
owns; a step of a queue's lag changes neither. -/
def Obligations.SidesShareOnlyTheQueues : Prop :=
  ∀ (s t : State) (e : Event), runEvent e s = .next t →
    ((∃ c, e = .control c) → SameBus s t) ∧
    ((∃ b, e = .bus b) → SameControl s t) ∧
    ((∃ q, e = .syncVis q ∨ e = .syncCred q) → SameBus s t ∧ SameControl s t)

/-- R20, sharpened: what a bus tick does to the bus side and what it pops and pushes does not depend on the
control side: two states that agree on the bus side, the queues and the parameters, and disagree on the
whole control side, make the same bus tick. -/
def Obligations.BusTickIgnoresControlSide : Prop :=
  ∀ (s u t : State) (b : BusIn), SameBus s u → u.downq = s.downq → u.upq = s.upq → u.cfg = s.cfg →
    busTick b s = .next t →
    ∃ v, busTick b u = .next v ∧ SameBus t v ∧ v.downq = t.downq ∧ v.upq = t.upq ∧ SameControl u v

/-- R258, R265: a bus tick pushes into `UPQ` only for the XFER frame at the head of `DOWNQ`: a command
response byte or timeout for a request, a byte or timeout of a block for a data request, an acknowledgement
for the last byte of a write block. -/
def Obligations.BusSidePushesOnlyWhenAsked : Prop :=
  ∀ (s t : State) (b : BusIn), Inv s → busTick b s = .next t → t.upq.items ≠ s.upq.items →
    ∃ f g, s.downq.head? = some f ∧ t.upq.items = s.upq.items ++ [g] ∧
      ((f.ctrl = tag s.cfg.modes .cmd .read .xfer ∧
          (g.ctrl = 0x00 ∨ g = { data := 0, ctrl := 0x02, last := true })) ∨
       (f.ctrl = tag s.cfg.modes .data .read .xfer ∧
          (g.ctrl = 0x01 ∨ g = { data := 0, ctrl := 0x03, last := true })) ∨
       (f.ctrl = tag s.cfg.modes .data .write .xfer ∧ f.last = true ∧
          ∃ st : BitVec 4, g = { data := 0, ctrl := 0#3 ++ st ++ 1#1, last := false }))

/-- R217: the arcs of the orchestrator's state; there is no other, but for reset. -/
def Obligations.OrchestratorArcs : Prop :=
  ∀ s t : State, nextEvent s ≠ .reset → step s = .next t → Arc s.ostate t.ostate = true

/-- R30, R32, R33, R35, R352: but for reset, the descriptor changes and flags are cleared only in the step
that leaves IDLE for SEND_CMD. -/
def Obligations.OnlyACommandClearsFlags : Prop :=
  ∀ s t : State, nextEvent s ≠ .reset → step s = .next t → ¬(s.ostate = .idle ∧ t.ostate = .sendCmd) →
    t.desc = s.desc ∧
    (s.cmdf.done = true → t.cmdf.done = true) ∧ (s.cmdf.timeout = true → t.cmdf.timeout = true) ∧
    (s.cmdf.crcEn = true → t.cmdf.crcEn = true) ∧
    (s.dataf.done = true → t.dataf.done = true) ∧ (s.dataf.timeout = true → t.dataf.timeout = true) ∧
    (s.dataf.werr = true → t.dataf.werr = true) ∧ (s.dataf.crcerr = true → t.dataf.crcerr = true)

/-- The invariant holds after reset, for every parameters that make a block. -/
def Obligations.InvAfterReset : Prop :=
  ∀ (c : Config) (env : List Event) (n : Nat), c.wellFormed = true → Inv (State.resetWith c env n)

/-- R216, R254, R257, R327: every step, whatever the event, keeps the invariant. -/
def Obligations.StepKeepsInv : Prop :=
  ∀ s t : State, Inv s → step s = .next t → Inv t

/-- No state that meets the invariant makes a step that faults: each fault of the model is a use that the
spec leaves without a meaning and that no run reaches. -/
def Obligations.InvStatesNeverFault : Prop :=
  ∀ (s : State) (r : Fault), Inv s → step s ≠ .fault r

/-- R215: with `DONE_ON_TIMEOUT = false`, every step keeps the flags of a cycle in step with its state. -/
def Obligations.StepKeepsFlagPhases : Prop :=
  ∀ s t : State, s.cfg.doneOnTimeout = false → FlagsOk s → step s = .next t → FlagsOk t

/-- R347: in a state whose flags are in step with its state, the event registers show only the listed
combinations; in IDLE and the CFG states `dataevt` shows neither 0x2 nor 0x8 alone, and both registers show
the end of a cycle or both show 0. -/
def Obligations.EventRegisterCombinations : Prop :=
  ∀ s : State, FlagsOk s →
    cmdevt s ∈ [0x0#32, 0x1#32, 0x9#32, 0x4#32] ∧
    dataevt s ∈ [0x0#32, 0x1#32, 0x3#32, 0x9#32, 0x4#32, 0xC#32, 0x2#32, 0x8#32] ∧
    (s.ostate ∈ [.idle, .cfgTimeoutCmd, .cfgTimeoutData, .cfgBlksize, .cfgVoltage] →
      dataevt s ≠ 0x2 ∧ dataevt s ≠ 0x8 ∧ (cmdevt s = 0 ↔ dataevt s = 0))
end

