-- ==== Sys2Proof/Laws/State.lean ====
section
/-! SUPPORT. One lemma per field and named update of the state, so that no proof unfolds a record update. -/

namespace Sys2Proof.Machine

/-! `State.pushDown`. -/

@[simp] theorem pushDown_cfg (f : Frame) (s : State) : (s.pushDown f).cfg = s.cfg := rfl
@[simp] theorem pushDown_host (f : Frame) (s : State) : (s.pushDown f).host = s.host := rfl
@[simp] theorem pushDown_pending (f : Frame) (s : State) : (s.pushDown f).pending = s.pending := rfl
@[simp] theorem pushDown_desc (f : Frame) (s : State) : (s.pushDown f).desc = s.desc := rfl
@[simp] theorem pushDown_response (f : Frame) (s : State) : (s.pushDown f).response = s.response := rfl
@[simp] theorem pushDown_cmdf (f : Frame) (s : State) : (s.pushDown f).cmdf = s.cmdf := rfl
@[simp] theorem pushDown_dataf (f : Frame) (s : State) : (s.pushDown f).dataf = s.dataf := rfl
@[simp] theorem pushDown_ostate (f : Frame) (s : State) : (s.pushDown f).ostate = s.ostate := rfl
@[simp] theorem pushDown_pos (f : Frame) (s : State) : (s.pushDown f).pos = s.pos := rfl
@[simp] theorem pushDown_reqSent (f : Frame) (s : State) : (s.pushDown f).reqSent = s.reqSent := rfl
@[simp] theorem pushDown_blkcnt (f : Frame) (s : State) : (s.pushDown f).blkcnt = s.blkcnt := rfl
@[simp] theorem pushDown_gen (f : Frame) (s : State) : (s.pushDown f).gen = s.gen := rfl
@[simp] theorem pushDown_chk (f : Frame) (s : State) : (s.pushDown f).chk = s.chk := rfl
@[simp] theorem pushDown_downq (f : Frame) (s : State) : (s.pushDown f).downq = s.downq.push f := rfl
@[simp] theorem pushDown_upq (f : Frame) (s : State) : (s.pushDown f).upq = s.upq := rfl
@[simp] theorem pushDown_fcfg (f : Frame) (s : State) : (s.pushDown f).fcfg = s.fcfg := rfl
@[simp] theorem pushDown_writer (f : Frame) (s : State) : (s.pushDown f).writer = s.writer := rfl
@[simp] theorem pushDown_reader (f : Frame) (s : State) : (s.pushDown f).reader = s.reader := rfl
@[simp] theorem pushDown_sampler (f : Frame) (s : State) : (s.pushDown f).sampler = s.sampler := rfl
@[simp] theorem pushDown_datapath (f : Frame) (s : State) : (s.pushDown f).datapath = s.datapath := rfl
@[simp] theorem pushDown_pads (f : Frame) (s : State) : (s.pushDown f).pads = s.pads := rfl
@[simp] theorem pushDown_out (f : Frame) (s : State) : (s.pushDown f).out = s.out := rfl
@[simp] theorem pushDown_cin (f : Frame) (s : State) : (s.pushDown f).cin = s.cin := rfl
@[simp] theorem pushDown_bin (f : Frame) (s : State) : (s.pushDown f).bin = s.bin := rfl
@[simp] theorem pushDown_env (f : Frame) (s : State) : (s.pushDown f).env = s.env := rfl
@[simp] theorem pushDown_time (f : Frame) (s : State) : (s.pushDown f).time = s.time := rfl

/-! `State.pushUp`. -/

@[simp] theorem pushUp_cfg (f : Frame) (s : State) : (s.pushUp f).cfg = s.cfg := rfl
@[simp] theorem pushUp_host (f : Frame) (s : State) : (s.pushUp f).host = s.host := rfl
@[simp] theorem pushUp_pending (f : Frame) (s : State) : (s.pushUp f).pending = s.pending := rfl
@[simp] theorem pushUp_desc (f : Frame) (s : State) : (s.pushUp f).desc = s.desc := rfl
@[simp] theorem pushUp_response (f : Frame) (s : State) : (s.pushUp f).response = s.response := rfl
@[simp] theorem pushUp_cmdf (f : Frame) (s : State) : (s.pushUp f).cmdf = s.cmdf := rfl
@[simp] theorem pushUp_dataf (f : Frame) (s : State) : (s.pushUp f).dataf = s.dataf := rfl
@[simp] theorem pushUp_ostate (f : Frame) (s : State) : (s.pushUp f).ostate = s.ostate := rfl
@[simp] theorem pushUp_pos (f : Frame) (s : State) : (s.pushUp f).pos = s.pos := rfl
@[simp] theorem pushUp_reqSent (f : Frame) (s : State) : (s.pushUp f).reqSent = s.reqSent := rfl
@[simp] theorem pushUp_blkcnt (f : Frame) (s : State) : (s.pushUp f).blkcnt = s.blkcnt := rfl
@[simp] theorem pushUp_gen (f : Frame) (s : State) : (s.pushUp f).gen = s.gen := rfl
@[simp] theorem pushUp_chk (f : Frame) (s : State) : (s.pushUp f).chk = s.chk := rfl
@[simp] theorem pushUp_downq (f : Frame) (s : State) : (s.pushUp f).downq = s.downq := rfl
@[simp] theorem pushUp_upq (f : Frame) (s : State) : (s.pushUp f).upq = s.upq.push f := rfl
@[simp] theorem pushUp_fcfg (f : Frame) (s : State) : (s.pushUp f).fcfg = s.fcfg := rfl
@[simp] theorem pushUp_writer (f : Frame) (s : State) : (s.pushUp f).writer = s.writer := rfl
@[simp] theorem pushUp_reader (f : Frame) (s : State) : (s.pushUp f).reader = s.reader := rfl
@[simp] theorem pushUp_sampler (f : Frame) (s : State) : (s.pushUp f).sampler = s.sampler := rfl
@[simp] theorem pushUp_datapath (f : Frame) (s : State) : (s.pushUp f).datapath = s.datapath := rfl
@[simp] theorem pushUp_pads (f : Frame) (s : State) : (s.pushUp f).pads = s.pads := rfl
@[simp] theorem pushUp_out (f : Frame) (s : State) : (s.pushUp f).out = s.out := rfl
@[simp] theorem pushUp_cin (f : Frame) (s : State) : (s.pushUp f).cin = s.cin := rfl
@[simp] theorem pushUp_bin (f : Frame) (s : State) : (s.pushUp f).bin = s.bin := rfl
@[simp] theorem pushUp_env (f : Frame) (s : State) : (s.pushUp f).env = s.env := rfl
@[simp] theorem pushUp_time (f : Frame) (s : State) : (s.pushUp f).time = s.time := rfl

/-! `idleTick`. -/

@[simp] theorem idleTick_cfg (s : State) : (idleTick s).cfg = s.cfg := rfl
@[simp] theorem idleTick_host (s : State) : (idleTick s).host = s.host := rfl
@[simp] theorem idleTick_pending (s : State) : (idleTick s).pending = s.pending := rfl
@[simp] theorem idleTick_desc (s : State) : (idleTick s).desc = s.desc := rfl
@[simp] theorem idleTick_response (s : State) : (idleTick s).response = s.response := rfl
@[simp] theorem idleTick_cmdf (s : State) : (idleTick s).cmdf = s.cmdf := rfl
@[simp] theorem idleTick_dataf (s : State) : (idleTick s).dataf = s.dataf := rfl
@[simp] theorem idleTick_ostate (s : State) : (idleTick s).ostate = s.ostate := rfl
@[simp] theorem idleTick_pos (s : State) : (idleTick s).pos = s.pos := rfl
@[simp] theorem idleTick_reqSent (s : State) : (idleTick s).reqSent = s.reqSent := rfl
@[simp] theorem idleTick_blkcnt (s : State) : (idleTick s).blkcnt = s.blkcnt := rfl
@[simp] theorem idleTick_gen (s : State) : (idleTick s).gen = s.gen := rfl
@[simp] theorem idleTick_chk (s : State) : (idleTick s).chk = s.chk := rfl
@[simp] theorem idleTick_downq (s : State) : (idleTick s).downq = s.downq := rfl
@[simp] theorem idleTick_upq (s : State) : (idleTick s).upq = s.upq := rfl
@[simp] theorem idleTick_fcfg (s : State) : (idleTick s).fcfg = s.fcfg := rfl
@[simp] theorem idleTick_writer (s : State) : (idleTick s).writer = s.writer := rfl
@[simp] theorem idleTick_reader (s : State) : (idleTick s).reader = s.reader := rfl
@[simp] theorem idleTick_sampler (s : State) : (idleTick s).sampler = .off := rfl
@[simp] theorem idleTick_datapath (s : State) : (idleTick s).datapath = s.datapath := rfl
@[simp] theorem idleTick_pads (s : State) : (idleTick s).pads = idlePads s := rfl
@[simp] theorem idleTick_out (s : State) : (idleTick s).out = s.out := rfl
@[simp] theorem idleTick_cin (s : State) : (idleTick s).cin = s.cin := rfl
@[simp] theorem idleTick_bin (s : State) : (idleTick s).bin = s.bin := rfl
@[simp] theorem idleTick_env (s : State) : (idleTick s).env = s.env := rfl
@[simp] theorem idleTick_time (s : State) : (idleTick s).time = s.time := rfl

/-! `clearErrors`. -/

@[simp] theorem clearErrors_cfg (s : State) : (clearErrors s).cfg = s.cfg := rfl
@[simp] theorem clearErrors_host (s : State) : (clearErrors s).host = s.host := rfl
@[simp] theorem clearErrors_pending (s : State) : (clearErrors s).pending = s.pending := rfl
@[simp] theorem clearErrors_desc (s : State) : (clearErrors s).desc = s.desc := rfl
@[simp] theorem clearErrors_response (s : State) : (clearErrors s).response = 0 := rfl
@[simp] theorem clearErrors_cmdf (s : State) : (clearErrors s).cmdf = .clear := rfl
@[simp] theorem clearErrors_dataf (s : State) : (clearErrors s).dataf = .clear := rfl
@[simp] theorem clearErrors_ostate (s : State) : (clearErrors s).ostate = s.ostate := rfl
@[simp] theorem clearErrors_pos (s : State) : (clearErrors s).pos = s.pos := rfl
@[simp] theorem clearErrors_reqSent (s : State) : (clearErrors s).reqSent = s.reqSent := rfl
@[simp] theorem clearErrors_blkcnt (s : State) : (clearErrors s).blkcnt = s.blkcnt := rfl
@[simp] theorem clearErrors_gen (s : State) : (clearErrors s).gen = s.gen := rfl
@[simp] theorem clearErrors_chk (s : State) : (clearErrors s).chk = s.chk := rfl
@[simp] theorem clearErrors_downq (s : State) : (clearErrors s).downq = s.downq := rfl
@[simp] theorem clearErrors_upq (s : State) : (clearErrors s).upq = s.upq := rfl
@[simp] theorem clearErrors_fcfg (s : State) : (clearErrors s).fcfg = s.fcfg := rfl
@[simp] theorem clearErrors_writer (s : State) : (clearErrors s).writer = s.writer := rfl
@[simp] theorem clearErrors_reader (s : State) : (clearErrors s).reader = s.reader := rfl
@[simp] theorem clearErrors_sampler (s : State) : (clearErrors s).sampler = s.sampler := rfl
@[simp] theorem clearErrors_datapath (s : State) : (clearErrors s).datapath = s.datapath := rfl
@[simp] theorem clearErrors_pads (s : State) : (clearErrors s).pads = s.pads := rfl
@[simp] theorem clearErrors_out (s : State) : (clearErrors s).out = s.out := rfl
@[simp] theorem clearErrors_cin (s : State) : (clearErrors s).cin = s.cin := rfl
@[simp] theorem clearErrors_bin (s : State) : (clearErrors s).bin = s.bin := rfl
@[simp] theorem clearErrors_env (s : State) : (clearErrors s).env = s.env := rfl
@[simp] theorem clearErrors_time (s : State) : (clearErrors s).time = s.time := rfl

/-! `startField`. -/

@[simp] theorem startField_cfg (f : CfgField) (s : State) : (startField f s).cfg = s.cfg := rfl
@[simp] theorem startField_host (f : CfgField) (s : State) : (startField f s).host = s.host := rfl
@[simp] theorem startField_pending (f : CfgField) (s : State) : (startField f s).pending = s.pending := rfl
@[simp] theorem startField_desc (f : CfgField) (s : State) : (startField f s).desc = s.desc := rfl
@[simp] theorem startField_response (f : CfgField) (s : State) : (startField f s).response = s.response := rfl
@[simp] theorem startField_cmdf (f : CfgField) (s : State) : (startField f s).cmdf = s.cmdf := rfl
@[simp] theorem startField_dataf (f : CfgField) (s : State) : (startField f s).dataf = s.dataf := rfl
@[simp] theorem startField_ostate (f : CfgField) (s : State) : (startField f s).ostate = f.state := rfl
@[simp] theorem startField_pos (f : CfgField) (s : State) : (startField f s).pos = 0 := rfl
@[simp] theorem startField_reqSent (f : CfgField) (s : State) : (startField f s).reqSent = s.reqSent := rfl
@[simp] theorem startField_blkcnt (f : CfgField) (s : State) : (startField f s).blkcnt = s.blkcnt := rfl
@[simp] theorem startField_gen (f : CfgField) (s : State) : (startField f s).gen = s.gen := rfl
@[simp] theorem startField_chk (f : CfgField) (s : State) : (startField f s).chk = s.chk := rfl
@[simp] theorem startField_downq (f : CfgField) (s : State) : (startField f s).downq = s.downq := rfl
@[simp] theorem startField_upq (f : CfgField) (s : State) : (startField f s).upq = s.upq := rfl
@[simp] theorem startField_fcfg (f : CfgField) (s : State) : (startField f s).fcfg = s.fcfg := rfl
@[simp] theorem startField_writer (f : CfgField) (s : State) : (startField f s).writer = s.writer := rfl
@[simp] theorem startField_reader (f : CfgField) (s : State) : (startField f s).reader = s.reader := rfl
@[simp] theorem startField_sampler (f : CfgField) (s : State) : (startField f s).sampler = s.sampler := rfl
@[simp] theorem startField_datapath (f : CfgField) (s : State) : (startField f s).datapath = s.datapath := rfl
@[simp] theorem startField_pads (f : CfgField) (s : State) : (startField f s).pads = s.pads := rfl
@[simp] theorem startField_out (f : CfgField) (s : State) : (startField f s).out = s.out := rfl
@[simp] theorem startField_cin (f : CfgField) (s : State) : (startField f s).cin = s.cin := rfl
@[simp] theorem startField_bin (f : CfgField) (s : State) : (startField f s).bin = s.bin := rfl
@[simp] theorem startField_env (f : CfgField) (s : State) : (startField f s).env = s.env := rfl
@[simp] theorem startField_time (f : CfgField) (s : State) : (startField f s).time = s.time := rfl

/-! `returnRead`. -/

@[simp] theorem returnRead_cfg (v : BitVec 120) (s : State) : (returnRead v s).cfg = s.cfg := rfl
@[simp] theorem returnRead_host (v : BitVec 120) (s : State) : (returnRead v s).host = s.host := rfl
@[simp] theorem returnRead_pending (v : BitVec 120) (s : State) : (returnRead v s).pending = s.pending := rfl
@[simp] theorem returnRead_desc (v : BitVec 120) (s : State) : (returnRead v s).desc = s.desc := rfl
@[simp] theorem returnRead_response (v : BitVec 120) (s : State) : (returnRead v s).response = s.response := rfl
@[simp] theorem returnRead_cmdf (v : BitVec 120) (s : State) : (returnRead v s).cmdf = s.cmdf := rfl
@[simp] theorem returnRead_dataf (v : BitVec 120) (s : State) : (returnRead v s).dataf = s.dataf := rfl
@[simp] theorem returnRead_ostate (v : BitVec 120) (s : State) : (returnRead v s).ostate = s.ostate := rfl
@[simp] theorem returnRead_pos (v : BitVec 120) (s : State) : (returnRead v s).pos = s.pos := rfl
@[simp] theorem returnRead_reqSent (v : BitVec 120) (s : State) : (returnRead v s).reqSent = s.reqSent := rfl
@[simp] theorem returnRead_blkcnt (v : BitVec 120) (s : State) : (returnRead v s).blkcnt = s.blkcnt := rfl
@[simp] theorem returnRead_gen (v : BitVec 120) (s : State) : (returnRead v s).gen = s.gen := rfl
@[simp] theorem returnRead_chk (v : BitVec 120) (s : State) : (returnRead v s).chk = s.chk := rfl
@[simp] theorem returnRead_downq (v : BitVec 120) (s : State) : (returnRead v s).downq = s.downq := rfl
@[simp] theorem returnRead_upq (v : BitVec 120) (s : State) : (returnRead v s).upq = s.upq := rfl
@[simp] theorem returnRead_fcfg (v : BitVec 120) (s : State) : (returnRead v s).fcfg = s.fcfg := rfl
@[simp] theorem returnRead_writer (v : BitVec 120) (s : State) : (returnRead v s).writer = s.writer := rfl
@[simp] theorem returnRead_reader (v : BitVec 120) (s : State) : (returnRead v s).reader = s.reader := rfl
@[simp] theorem returnRead_sampler (v : BitVec 120) (s : State) : (returnRead v s).sampler = s.sampler := rfl
@[simp] theorem returnRead_datapath (v : BitVec 120) (s : State) : (returnRead v s).datapath = s.datapath := rfl
@[simp] theorem returnRead_pads (v : BitVec 120) (s : State) : (returnRead v s).pads = s.pads := rfl
@[simp] theorem returnRead_out (v : BitVec 120) (s : State) : (returnRead v s).out = { s.out with rdata := some v } := rfl
@[simp] theorem returnRead_cin (v : BitVec 120) (s : State) : (returnRead v s).cin = s.cin := rfl
@[simp] theorem returnRead_bin (v : BitVec 120) (s : State) : (returnRead v s).bin = s.bin := rfl
@[simp] theorem returnRead_env (v : BitVec 120) (s : State) : (returnRead v s).env = s.env := rfl
@[simp] theorem returnRead_time (v : BitVec 120) (s : State) : (returnRead v s).time = s.time := rfl

/-! `State.withHostWrites`. -/

@[simp] theorem withHostWrites_cfg (s h : State) : (s.withHostWrites h).cfg = s.cfg := rfl
@[simp] theorem withHostWrites_host (s h : State) : (s.withHostWrites h).host = h.host := rfl
@[simp] theorem withHostWrites_pending (s h : State) : (s.withHostWrites h).pending = s.pending := rfl
@[simp] theorem withHostWrites_desc (s h : State) : (s.withHostWrites h).desc = s.desc := rfl
@[simp] theorem withHostWrites_response (s h : State) : (s.withHostWrites h).response = s.response := rfl
@[simp] theorem withHostWrites_cmdf (s h : State) : (s.withHostWrites h).cmdf = s.cmdf := rfl
@[simp] theorem withHostWrites_dataf (s h : State) : (s.withHostWrites h).dataf = s.dataf := rfl
@[simp] theorem withHostWrites_ostate (s h : State) : (s.withHostWrites h).ostate = s.ostate := rfl
@[simp] theorem withHostWrites_pos (s h : State) : (s.withHostWrites h).pos = s.pos := rfl
@[simp] theorem withHostWrites_reqSent (s h : State) : (s.withHostWrites h).reqSent = s.reqSent := rfl
@[simp] theorem withHostWrites_blkcnt (s h : State) : (s.withHostWrites h).blkcnt = s.blkcnt := rfl
@[simp] theorem withHostWrites_gen (s h : State) : (s.withHostWrites h).gen = s.gen := rfl
@[simp] theorem withHostWrites_chk (s h : State) : (s.withHostWrites h).chk = s.chk := rfl
@[simp] theorem withHostWrites_downq (s h : State) : (s.withHostWrites h).downq = s.downq := rfl
@[simp] theorem withHostWrites_upq (s h : State) : (s.withHostWrites h).upq = s.upq := rfl
@[simp] theorem withHostWrites_fcfg (s h : State) : (s.withHostWrites h).fcfg = s.fcfg := rfl
@[simp] theorem withHostWrites_writer (s h : State) : (s.withHostWrites h).writer = s.writer := rfl
@[simp] theorem withHostWrites_reader (s h : State) : (s.withHostWrites h).reader = s.reader := rfl
@[simp] theorem withHostWrites_sampler (s h : State) : (s.withHostWrites h).sampler = s.sampler := rfl
@[simp] theorem withHostWrites_datapath (s h : State) : (s.withHostWrites h).datapath = s.datapath := rfl
@[simp] theorem withHostWrites_pads (s h : State) : (s.withHostWrites h).pads = s.pads := rfl
@[simp] theorem withHostWrites_out (s h : State) : (s.withHostWrites h).out = { s.out with rdata := h.out.rdata } := rfl
@[simp] theorem withHostWrites_cin (s h : State) : (s.withHostWrites h).cin = s.cin := rfl
@[simp] theorem withHostWrites_bin (s h : State) : (s.withHostWrites h).bin = s.bin := rfl
@[simp] theorem withHostWrites_env (s h : State) : (s.withHostWrites h).env = s.env := rfl
@[simp] theorem withHostWrites_time (s h : State) : (s.withHostWrites h).time = s.time := rfl

/-! `State.withHostOf`. -/

@[simp] theorem withHostOf_cfg (s h : State) : (s.withHostOf h).cfg = s.cfg := rfl
@[simp] theorem withHostOf_host (s h : State) : (s.withHostOf h).host = h.host := rfl
@[simp] theorem withHostOf_pending (s h : State) : (s.withHostOf h).pending = h.pending := rfl
@[simp] theorem withHostOf_desc (s h : State) : (s.withHostOf h).desc = s.desc := rfl
@[simp] theorem withHostOf_response (s h : State) : (s.withHostOf h).response = s.response := rfl
@[simp] theorem withHostOf_cmdf (s h : State) : (s.withHostOf h).cmdf = s.cmdf := rfl
@[simp] theorem withHostOf_dataf (s h : State) : (s.withHostOf h).dataf = s.dataf := rfl
@[simp] theorem withHostOf_ostate (s h : State) : (s.withHostOf h).ostate = s.ostate := rfl
@[simp] theorem withHostOf_pos (s h : State) : (s.withHostOf h).pos = s.pos := rfl
@[simp] theorem withHostOf_reqSent (s h : State) : (s.withHostOf h).reqSent = s.reqSent := rfl
@[simp] theorem withHostOf_blkcnt (s h : State) : (s.withHostOf h).blkcnt = s.blkcnt := rfl
@[simp] theorem withHostOf_gen (s h : State) : (s.withHostOf h).gen = s.gen := rfl
@[simp] theorem withHostOf_chk (s h : State) : (s.withHostOf h).chk = s.chk := rfl
@[simp] theorem withHostOf_downq (s h : State) : (s.withHostOf h).downq = s.downq := rfl
@[simp] theorem withHostOf_upq (s h : State) : (s.withHostOf h).upq = s.upq := rfl
@[simp] theorem withHostOf_fcfg (s h : State) : (s.withHostOf h).fcfg = s.fcfg := rfl
@[simp] theorem withHostOf_writer (s h : State) : (s.withHostOf h).writer = s.writer := rfl
@[simp] theorem withHostOf_reader (s h : State) : (s.withHostOf h).reader = s.reader := rfl
@[simp] theorem withHostOf_sampler (s h : State) : (s.withHostOf h).sampler = s.sampler := rfl
@[simp] theorem withHostOf_datapath (s h : State) : (s.withHostOf h).datapath = s.datapath := rfl
@[simp] theorem withHostOf_pads (s h : State) : (s.withHostOf h).pads = s.pads := rfl
@[simp] theorem withHostOf_out (s h : State) : (s.withHostOf h).out = { s.out with rdata := h.out.rdata } := rfl
@[simp] theorem withHostOf_cin (s h : State) : (s.withHostOf h).cin = s.cin := rfl
@[simp] theorem withHostOf_bin (s h : State) : (s.withHostOf h).bin = s.bin := rfl
@[simp] theorem withHostOf_env (s h : State) : (s.withHostOf h).env = s.env := rfl
@[simp] theorem withHostOf_time (s h : State) : (s.withHostOf h).time = s.time := rfl

/-! `State.advance`. -/

@[simp] theorem advance_cfg (s : State) : (s.advance).cfg = s.cfg := rfl
@[simp] theorem advance_host (s : State) : (s.advance).host = s.host := rfl
@[simp] theorem advance_pending (s : State) : (s.advance).pending = s.pending := rfl
@[simp] theorem advance_desc (s : State) : (s.advance).desc = s.desc := rfl
@[simp] theorem advance_response (s : State) : (s.advance).response = s.response := rfl
@[simp] theorem advance_cmdf (s : State) : (s.advance).cmdf = s.cmdf := rfl
@[simp] theorem advance_dataf (s : State) : (s.advance).dataf = s.dataf := rfl
@[simp] theorem advance_ostate (s : State) : (s.advance).ostate = s.ostate := rfl
@[simp] theorem advance_pos (s : State) : (s.advance).pos = s.pos := rfl
@[simp] theorem advance_reqSent (s : State) : (s.advance).reqSent = s.reqSent := rfl
@[simp] theorem advance_blkcnt (s : State) : (s.advance).blkcnt = s.blkcnt := rfl
@[simp] theorem advance_gen (s : State) : (s.advance).gen = s.gen := rfl
@[simp] theorem advance_chk (s : State) : (s.advance).chk = s.chk := rfl
@[simp] theorem advance_downq (s : State) : (s.advance).downq = s.downq := rfl
@[simp] theorem advance_upq (s : State) : (s.advance).upq = s.upq := rfl
@[simp] theorem advance_fcfg (s : State) : (s.advance).fcfg = s.fcfg := rfl
@[simp] theorem advance_writer (s : State) : (s.advance).writer = s.writer := rfl
@[simp] theorem advance_reader (s : State) : (s.advance).reader = s.reader := rfl
@[simp] theorem advance_sampler (s : State) : (s.advance).sampler = s.sampler := rfl
@[simp] theorem advance_datapath (s : State) : (s.advance).datapath = s.datapath := rfl
@[simp] theorem advance_pads (s : State) : (s.advance).pads = s.pads := rfl
@[simp] theorem advance_out (s : State) : (s.advance).out = s.out := rfl
@[simp] theorem advance_cin (s : State) : (s.advance).cin = s.cin := rfl
@[simp] theorem advance_bin (s : State) : (s.advance).bin = s.bin := rfl
@[simp] theorem advance_env (s : State) : (s.advance).env = s.env.tail := rfl
@[simp] theorem advance_time (s : State) : (s.advance).time = s.time + 1 := rfl

/-! `State.withCtl`. -/

@[simp] theorem withCtl_cfg (i : CtlIn) (s : State) : (s.withCtl i).cfg = s.cfg := rfl
@[simp] theorem withCtl_host (i : CtlIn) (s : State) : (s.withCtl i).host = s.host := rfl
@[simp] theorem withCtl_pending (i : CtlIn) (s : State) : (s.withCtl i).pending = s.pending := rfl
@[simp] theorem withCtl_desc (i : CtlIn) (s : State) : (s.withCtl i).desc = s.desc := rfl
@[simp] theorem withCtl_response (i : CtlIn) (s : State) : (s.withCtl i).response = s.response := rfl
@[simp] theorem withCtl_cmdf (i : CtlIn) (s : State) : (s.withCtl i).cmdf = s.cmdf := rfl
@[simp] theorem withCtl_dataf (i : CtlIn) (s : State) : (s.withCtl i).dataf = s.dataf := rfl
@[simp] theorem withCtl_ostate (i : CtlIn) (s : State) : (s.withCtl i).ostate = s.ostate := rfl
@[simp] theorem withCtl_pos (i : CtlIn) (s : State) : (s.withCtl i).pos = s.pos := rfl
@[simp] theorem withCtl_reqSent (i : CtlIn) (s : State) : (s.withCtl i).reqSent = s.reqSent := rfl
@[simp] theorem withCtl_blkcnt (i : CtlIn) (s : State) : (s.withCtl i).blkcnt = s.blkcnt := rfl
@[simp] theorem withCtl_gen (i : CtlIn) (s : State) : (s.withCtl i).gen = s.gen := rfl
@[simp] theorem withCtl_chk (i : CtlIn) (s : State) : (s.withCtl i).chk = s.chk := rfl
@[simp] theorem withCtl_downq (i : CtlIn) (s : State) : (s.withCtl i).downq = s.downq := rfl
@[simp] theorem withCtl_upq (i : CtlIn) (s : State) : (s.withCtl i).upq = s.upq := rfl
@[simp] theorem withCtl_fcfg (i : CtlIn) (s : State) : (s.withCtl i).fcfg = s.fcfg := rfl
@[simp] theorem withCtl_writer (i : CtlIn) (s : State) : (s.withCtl i).writer = s.writer := rfl
@[simp] theorem withCtl_reader (i : CtlIn) (s : State) : (s.withCtl i).reader = s.reader := rfl
@[simp] theorem withCtl_sampler (i : CtlIn) (s : State) : (s.withCtl i).sampler = s.sampler := rfl
@[simp] theorem withCtl_datapath (i : CtlIn) (s : State) : (s.withCtl i).datapath = s.datapath := rfl
@[simp] theorem withCtl_pads (i : CtlIn) (s : State) : (s.withCtl i).pads = s.pads := rfl
@[simp] theorem withCtl_out (i : CtlIn) (s : State) : (s.withCtl i).out = .quiet := rfl
@[simp] theorem withCtl_cin (i : CtlIn) (s : State) : (s.withCtl i).cin = i := rfl
@[simp] theorem withCtl_bin (i : CtlIn) (s : State) : (s.withCtl i).bin = s.bin := rfl
@[simp] theorem withCtl_env (i : CtlIn) (s : State) : (s.withCtl i).env = s.env := rfl
@[simp] theorem withCtl_time (i : CtlIn) (s : State) : (s.withCtl i).time = s.time := rfl

/-! `State.withBus`. -/

@[simp] theorem withBus_cfg (i : BusIn) (s : State) : (s.withBus i).cfg = s.cfg := rfl
@[simp] theorem withBus_host (i : BusIn) (s : State) : (s.withBus i).host = s.host := rfl
@[simp] theorem withBus_pending (i : BusIn) (s : State) : (s.withBus i).pending = s.pending := rfl
@[simp] theorem withBus_desc (i : BusIn) (s : State) : (s.withBus i).desc = s.desc := rfl
@[simp] theorem withBus_response (i : BusIn) (s : State) : (s.withBus i).response = s.response := rfl
@[simp] theorem withBus_cmdf (i : BusIn) (s : State) : (s.withBus i).cmdf = s.cmdf := rfl
@[simp] theorem withBus_dataf (i : BusIn) (s : State) : (s.withBus i).dataf = s.dataf := rfl
@[simp] theorem withBus_ostate (i : BusIn) (s : State) : (s.withBus i).ostate = s.ostate := rfl
@[simp] theorem withBus_pos (i : BusIn) (s : State) : (s.withBus i).pos = s.pos := rfl
@[simp] theorem withBus_reqSent (i : BusIn) (s : State) : (s.withBus i).reqSent = s.reqSent := rfl
@[simp] theorem withBus_blkcnt (i : BusIn) (s : State) : (s.withBus i).blkcnt = s.blkcnt := rfl
@[simp] theorem withBus_gen (i : BusIn) (s : State) : (s.withBus i).gen = s.gen := rfl
@[simp] theorem withBus_chk (i : BusIn) (s : State) : (s.withBus i).chk = s.chk := rfl
@[simp] theorem withBus_downq (i : BusIn) (s : State) : (s.withBus i).downq = s.downq := rfl
@[simp] theorem withBus_upq (i : BusIn) (s : State) : (s.withBus i).upq = s.upq := rfl
@[simp] theorem withBus_fcfg (i : BusIn) (s : State) : (s.withBus i).fcfg = s.fcfg := rfl
@[simp] theorem withBus_writer (i : BusIn) (s : State) : (s.withBus i).writer = s.writer := rfl
@[simp] theorem withBus_reader (i : BusIn) (s : State) : (s.withBus i).reader = s.reader := rfl
@[simp] theorem withBus_sampler (i : BusIn) (s : State) : (s.withBus i).sampler = s.sampler := rfl
@[simp] theorem withBus_datapath (i : BusIn) (s : State) : (s.withBus i).datapath = s.datapath := rfl
@[simp] theorem withBus_pads (i : BusIn) (s : State) : (s.withBus i).pads = s.pads := rfl
@[simp] theorem withBus_out (i : BusIn) (s : State) : (s.withBus i).out = s.out := rfl
@[simp] theorem withBus_cin (i : BusIn) (s : State) : (s.withBus i).cin = s.cin := rfl
@[simp] theorem withBus_bin (i : BusIn) (s : State) : (s.withBus i).bin = i := rfl
@[simp] theorem withBus_env (i : BusIn) (s : State) : (s.withBus i).env = s.env := rfl
@[simp] theorem withBus_time (i : BusIn) (s : State) : (s.withBus i).time = s.time := rfl

/-! `ctlStart`. -/

@[simp] theorem ctlStart_cfg (c : CtlIn) (s : State) : (ctlStart c s).cfg = s.cfg := rfl
@[simp] theorem ctlStart_host (c : CtlIn) (s : State) : (ctlStart c s).host = s.host := rfl
@[simp] theorem ctlStart_pending (c : CtlIn) (s : State) : (ctlStart c s).pending = s.pending := rfl
@[simp] theorem ctlStart_desc (c : CtlIn) (s : State) : (ctlStart c s).desc = s.desc := rfl
@[simp] theorem ctlStart_response (c : CtlIn) (s : State) : (ctlStart c s).response = s.response := rfl
@[simp] theorem ctlStart_cmdf (c : CtlIn) (s : State) : (ctlStart c s).cmdf = s.cmdf := rfl
@[simp] theorem ctlStart_dataf (c : CtlIn) (s : State) : (ctlStart c s).dataf = s.dataf := rfl
@[simp] theorem ctlStart_ostate (c : CtlIn) (s : State) : (ctlStart c s).ostate = s.ostate := rfl
@[simp] theorem ctlStart_pos (c : CtlIn) (s : State) : (ctlStart c s).pos = s.pos := rfl
@[simp] theorem ctlStart_reqSent (c : CtlIn) (s : State) : (ctlStart c s).reqSent = s.reqSent := rfl
@[simp] theorem ctlStart_blkcnt (c : CtlIn) (s : State) : (ctlStart c s).blkcnt = s.blkcnt := rfl
@[simp] theorem ctlStart_gen (c : CtlIn) (s : State) : (ctlStart c s).gen = s.gen := rfl
@[simp] theorem ctlStart_chk (c : CtlIn) (s : State) : (ctlStart c s).chk = s.chk := rfl
@[simp] theorem ctlStart_downq (c : CtlIn) (s : State) : (ctlStart c s).downq = s.downq := rfl
@[simp] theorem ctlStart_upq (c : CtlIn) (s : State) : (ctlStart c s).upq = s.upq := rfl
@[simp] theorem ctlStart_fcfg (c : CtlIn) (s : State) : (ctlStart c s).fcfg = s.fcfg := rfl
@[simp] theorem ctlStart_writer (c : CtlIn) (s : State) : (ctlStart c s).writer = s.writer := rfl
@[simp] theorem ctlStart_reader (c : CtlIn) (s : State) : (ctlStart c s).reader = s.reader := rfl
@[simp] theorem ctlStart_sampler (c : CtlIn) (s : State) : (ctlStart c s).sampler = s.sampler := rfl
@[simp] theorem ctlStart_datapath (c : CtlIn) (s : State) : (ctlStart c s).datapath = s.datapath := rfl
@[simp] theorem ctlStart_pads (c : CtlIn) (s : State) : (ctlStart c s).pads = s.pads := rfl
@[simp] theorem ctlStart_out (c : CtlIn) (s : State) : (ctlStart c s).out = .quiet := rfl
@[simp] theorem ctlStart_cin (c : CtlIn) (s : State) : (ctlStart c s).cin = c := rfl
@[simp] theorem ctlStart_bin (c : CtlIn) (s : State) : (ctlStart c s).bin = s.bin := rfl
@[simp] theorem ctlStart_env (c : CtlIn) (s : State) : (ctlStart c s).env = s.env := rfl
@[simp] theorem ctlStart_time (c : CtlIn) (s : State) : (ctlStart c s).time = s.time + 1 := rfl

/-! `busStart`. -/

@[simp] theorem busStart_cfg (b : BusIn) (s : State) : (busStart b s).cfg = s.cfg := rfl
@[simp] theorem busStart_host (b : BusIn) (s : State) : (busStart b s).host = s.host := rfl
@[simp] theorem busStart_pending (b : BusIn) (s : State) : (busStart b s).pending = s.pending := rfl
@[simp] theorem busStart_desc (b : BusIn) (s : State) : (busStart b s).desc = s.desc := rfl
@[simp] theorem busStart_response (b : BusIn) (s : State) : (busStart b s).response = s.response := rfl
@[simp] theorem busStart_cmdf (b : BusIn) (s : State) : (busStart b s).cmdf = s.cmdf := rfl
@[simp] theorem busStart_dataf (b : BusIn) (s : State) : (busStart b s).dataf = s.dataf := rfl
@[simp] theorem busStart_ostate (b : BusIn) (s : State) : (busStart b s).ostate = s.ostate := rfl
@[simp] theorem busStart_pos (b : BusIn) (s : State) : (busStart b s).pos = s.pos := rfl
@[simp] theorem busStart_reqSent (b : BusIn) (s : State) : (busStart b s).reqSent = s.reqSent := rfl
@[simp] theorem busStart_blkcnt (b : BusIn) (s : State) : (busStart b s).blkcnt = s.blkcnt := rfl
@[simp] theorem busStart_gen (b : BusIn) (s : State) : (busStart b s).gen = s.gen := rfl
@[simp] theorem busStart_chk (b : BusIn) (s : State) : (busStart b s).chk = s.chk := rfl
@[simp] theorem busStart_downq (b : BusIn) (s : State) : (busStart b s).downq = s.downq := rfl
@[simp] theorem busStart_upq (b : BusIn) (s : State) : (busStart b s).upq = s.upq := rfl
@[simp] theorem busStart_fcfg (b : BusIn) (s : State) : (busStart b s).fcfg = s.fcfg := rfl
@[simp] theorem busStart_writer (b : BusIn) (s : State) : (busStart b s).writer = s.writer := rfl
@[simp] theorem busStart_reader (b : BusIn) (s : State) : (busStart b s).reader = s.reader := rfl
@[simp] theorem busStart_sampler (b : BusIn) (s : State) : (busStart b s).sampler = s.sampler := rfl
@[simp] theorem busStart_datapath (b : BusIn) (s : State) : (busStart b s).datapath = s.datapath := rfl
@[simp] theorem busStart_pads (b : BusIn) (s : State) : (busStart b s).pads = s.pads := rfl
@[simp] theorem busStart_out (b : BusIn) (s : State) : (busStart b s).out = s.out := rfl
@[simp] theorem busStart_cin (b : BusIn) (s : State) : (busStart b s).cin = s.cin := rfl
@[simp] theorem busStart_bin (b : BusIn) (s : State) : (busStart b s).bin = b := rfl
@[simp] theorem busStart_env (b : BusIn) (s : State) : (busStart b s).env = s.env := rfl
@[simp] theorem busStart_time (b : BusIn) (s : State) : (busStart b s).time = s.time + 1 := rfl

/-! `State.withEvent`. -/

@[simp] theorem withEvent_cfg (e : Event) (s : State) : (s.withEvent e).cfg = s.cfg := rfl
@[simp] theorem withEvent_host (e : Event) (s : State) : (s.withEvent e).host = s.host := rfl
@[simp] theorem withEvent_pending (e : Event) (s : State) : (s.withEvent e).pending = s.pending := rfl
@[simp] theorem withEvent_desc (e : Event) (s : State) : (s.withEvent e).desc = s.desc := rfl
@[simp] theorem withEvent_response (e : Event) (s : State) : (s.withEvent e).response = s.response := rfl
@[simp] theorem withEvent_cmdf (e : Event) (s : State) : (s.withEvent e).cmdf = s.cmdf := rfl
@[simp] theorem withEvent_dataf (e : Event) (s : State) : (s.withEvent e).dataf = s.dataf := rfl
@[simp] theorem withEvent_ostate (e : Event) (s : State) : (s.withEvent e).ostate = s.ostate := rfl
@[simp] theorem withEvent_pos (e : Event) (s : State) : (s.withEvent e).pos = s.pos := rfl
@[simp] theorem withEvent_reqSent (e : Event) (s : State) : (s.withEvent e).reqSent = s.reqSent := rfl
@[simp] theorem withEvent_blkcnt (e : Event) (s : State) : (s.withEvent e).blkcnt = s.blkcnt := rfl
@[simp] theorem withEvent_gen (e : Event) (s : State) : (s.withEvent e).gen = s.gen := rfl
@[simp] theorem withEvent_chk (e : Event) (s : State) : (s.withEvent e).chk = s.chk := rfl
@[simp] theorem withEvent_downq (e : Event) (s : State) : (s.withEvent e).downq = s.downq := rfl
@[simp] theorem withEvent_upq (e : Event) (s : State) : (s.withEvent e).upq = s.upq := rfl
@[simp] theorem withEvent_fcfg (e : Event) (s : State) : (s.withEvent e).fcfg = s.fcfg := rfl
@[simp] theorem withEvent_writer (e : Event) (s : State) : (s.withEvent e).writer = s.writer := rfl
@[simp] theorem withEvent_reader (e : Event) (s : State) : (s.withEvent e).reader = s.reader := rfl
@[simp] theorem withEvent_sampler (e : Event) (s : State) : (s.withEvent e).sampler = s.sampler := rfl
@[simp] theorem withEvent_datapath (e : Event) (s : State) : (s.withEvent e).datapath = s.datapath := rfl
@[simp] theorem withEvent_pads (e : Event) (s : State) : (s.withEvent e).pads = s.pads := rfl
@[simp] theorem withEvent_out (e : Event) (s : State) : (s.withEvent e).out = s.out := rfl
@[simp] theorem withEvent_cin (e : Event) (s : State) : (s.withEvent e).cin = s.cin := rfl
@[simp] theorem withEvent_bin (e : Event) (s : State) : (s.withEvent e).bin = s.bin := rfl
@[simp] theorem withEvent_env (e : Event) (s : State) : (s.withEvent e).env = e :: s.env := rfl
@[simp] theorem withEvent_time (e : Event) (s : State) : (s.withEvent e).time = s.time := rfl

/-! `raise`: what no error changes, and what each does. -/

@[simp] theorem raise_cfg (e : ErrorKind) (s : State) : (raise e s).cfg = s.cfg := by cases e <;> rfl
@[simp] theorem raise_host (e : ErrorKind) (s : State) : (raise e s).host = s.host := by cases e <;> rfl
@[simp] theorem raise_pending (e : ErrorKind) (s : State) : (raise e s).pending = s.pending := by cases e <;> rfl
@[simp] theorem raise_desc (e : ErrorKind) (s : State) : (raise e s).desc = s.desc := by cases e <;> rfl
@[simp] theorem raise_response (e : ErrorKind) (s : State) : (raise e s).response = s.response := by cases e <;> rfl
@[simp] theorem raise_pos (e : ErrorKind) (s : State) : (raise e s).pos = s.pos := by cases e <;> rfl
@[simp] theorem raise_reqSent (e : ErrorKind) (s : State) : (raise e s).reqSent = s.reqSent := by cases e <;> rfl
@[simp] theorem raise_gen (e : ErrorKind) (s : State) : (raise e s).gen = s.gen := by cases e <;> rfl
@[simp] theorem raise_chk (e : ErrorKind) (s : State) : (raise e s).chk = s.chk := by cases e <;> rfl
@[simp] theorem raise_downq (e : ErrorKind) (s : State) : (raise e s).downq = s.downq := by cases e <;> rfl
@[simp] theorem raise_upq (e : ErrorKind) (s : State) : (raise e s).upq = s.upq := by cases e <;> rfl
@[simp] theorem raise_fcfg (e : ErrorKind) (s : State) : (raise e s).fcfg = s.fcfg := by cases e <;> rfl
@[simp] theorem raise_writer (e : ErrorKind) (s : State) : (raise e s).writer = s.writer := by cases e <;> rfl
@[simp] theorem raise_reader (e : ErrorKind) (s : State) : (raise e s).reader = s.reader := by cases e <;> rfl
@[simp] theorem raise_sampler (e : ErrorKind) (s : State) : (raise e s).sampler = s.sampler := by cases e <;> rfl
@[simp] theorem raise_datapath (e : ErrorKind) (s : State) : (raise e s).datapath = s.datapath := by cases e <;> rfl
@[simp] theorem raise_pads (e : ErrorKind) (s : State) : (raise e s).pads = s.pads := by cases e <;> rfl
@[simp] theorem raise_out (e : ErrorKind) (s : State) : (raise e s).out = s.out := by cases e <;> rfl
@[simp] theorem raise_cin (e : ErrorKind) (s : State) : (raise e s).cin = s.cin := by cases e <;> rfl
@[simp] theorem raise_bin (e : ErrorKind) (s : State) : (raise e s).bin = s.bin := by cases e <;> rfl
@[simp] theorem raise_env (e : ErrorKind) (s : State) : (raise e s).env = s.env := by cases e <;> rfl
@[simp] theorem raise_time (e : ErrorKind) (s : State) : (raise e s).time = s.time := by cases e <;> rfl

@[simp] theorem raise_commandCrcError (s : State) : raise .commandCrcError s = s := rfl

@[simp] theorem raise_dataWriteError (s : State) :
    raise .dataWriteError s = { s with dataf := { s.dataf with werr := true } } := rfl

@[simp] theorem raise_dataCrcError (s : State) :
    raise .dataCrcError s = { s with dataf := { s.dataf with crcerr := true } } := rfl

@[simp] theorem raise_timeout_idle (s : State) :
    (raise .commandTimeout s).ostate = .idle ∧ (raise .dataTimeout s).ostate = .idle := ⟨rfl, rfl⟩

/-! What `checkerTake` and `endBlock` leave unchanged. -/

@[simp] theorem checkerTake_cfg (b : Byte) (s : State) : (checkerTake b s).cfg = s.cfg := by
  unfold checkerTake; split <;> (try rfl); split <;> simp
@[simp] theorem checkerTake_host (b : Byte) (s : State) : (checkerTake b s).host = s.host := by
  unfold checkerTake; split <;> (try rfl); split <;> simp
@[simp] theorem checkerTake_pending (b : Byte) (s : State) : (checkerTake b s).pending = s.pending := by
  unfold checkerTake; split <;> (try rfl); split <;> simp
@[simp] theorem checkerTake_desc (b : Byte) (s : State) : (checkerTake b s).desc = s.desc := by
  unfold checkerTake; split <;> (try rfl); split <;> simp
@[simp] theorem checkerTake_response (b : Byte) (s : State) : (checkerTake b s).response = s.response := by
  unfold checkerTake; split <;> (try rfl); split <;> simp
@[simp] theorem checkerTake_cmdf (b : Byte) (s : State) : (checkerTake b s).cmdf = s.cmdf := by
  unfold checkerTake; split <;> (try rfl); split <;> simp
@[simp] theorem checkerTake_ostate (b : Byte) (s : State) : (checkerTake b s).ostate = s.ostate := by
  unfold checkerTake; split <;> (try rfl); split <;> simp
@[simp] theorem checkerTake_pos (b : Byte) (s : State) : (checkerTake b s).pos = s.pos := by
  unfold checkerTake; split <;> (try rfl); split <;> simp
@[simp] theorem checkerTake_reqSent (b : Byte) (s : State) : (checkerTake b s).reqSent = s.reqSent := by
  unfold checkerTake; split <;> (try rfl); split <;> simp
@[simp] theorem checkerTake_blkcnt (b : Byte) (s : State) : (checkerTake b s).blkcnt = s.blkcnt := by
  unfold checkerTake; split <;> (try rfl); split <;> simp
@[simp] theorem checkerTake_gen (b : Byte) (s : State) : (checkerTake b s).gen = s.gen := by
  unfold checkerTake; split <;> (try rfl); split <;> simp
@[simp] theorem checkerTake_downq (b : Byte) (s : State) : (checkerTake b s).downq = s.downq := by
  unfold checkerTake; split <;> (try rfl); split <;> simp
@[simp] theorem checkerTake_upq (b : Byte) (s : State) : (checkerTake b s).upq = s.upq := by
  unfold checkerTake; split <;> (try rfl); split <;> simp
@[simp] theorem checkerTake_fcfg (b : Byte) (s : State) : (checkerTake b s).fcfg = s.fcfg := by
  unfold checkerTake; split <;> (try rfl); split <;> simp
@[simp] theorem checkerTake_writer (b : Byte) (s : State) : (checkerTake b s).writer = s.writer := by
  unfold checkerTake; split <;> (try rfl); split <;> simp
@[simp] theorem checkerTake_reader (b : Byte) (s : State) : (checkerTake b s).reader = s.reader := by
  unfold checkerTake; split <;> (try rfl); split <;> simp
@[simp] theorem checkerTake_sampler (b : Byte) (s : State) : (checkerTake b s).sampler = s.sampler := by
  unfold checkerTake; split <;> (try rfl); split <;> simp
@[simp] theorem checkerTake_datapath (b : Byte) (s : State) : (checkerTake b s).datapath = s.datapath := by
  unfold checkerTake; split <;> (try rfl); split <;> simp
@[simp] theorem checkerTake_pads (b : Byte) (s : State) : (checkerTake b s).pads = s.pads := by
  unfold checkerTake; split <;> (try rfl); split <;> simp
@[simp] theorem checkerTake_cin (b : Byte) (s : State) : (checkerTake b s).cin = s.cin := by
  unfold checkerTake; split <;> (try rfl); split <;> simp
@[simp] theorem checkerTake_bin (b : Byte) (s : State) : (checkerTake b s).bin = s.bin := by
  unfold checkerTake; split <;> (try rfl); split <;> simp
@[simp] theorem checkerTake_env (b : Byte) (s : State) : (checkerTake b s).env = s.env := by
  unfold checkerTake; split <;> (try rfl); split <;> simp
@[simp] theorem checkerTake_time (b : Byte) (s : State) : (checkerTake b s).time = s.time := by
  unfold checkerTake; split <;> (try rfl); split <;> simp

@[simp] theorem endBlock_cfg (s : State) : (endBlock s).cfg = s.cfg := by
  unfold endBlock; split <;> rfl
@[simp] theorem endBlock_host (s : State) : (endBlock s).host = s.host := by
  unfold endBlock; split <;> rfl
@[simp] theorem endBlock_pending (s : State) : (endBlock s).pending = s.pending := by
  unfold endBlock; split <;> rfl
@[simp] theorem endBlock_desc (s : State) : (endBlock s).desc = s.desc := by
  unfold endBlock; split <;> rfl
@[simp] theorem endBlock_response (s : State) : (endBlock s).response = s.response := by
  unfold endBlock; split <;> rfl
@[simp] theorem endBlock_cmdf (s : State) : (endBlock s).cmdf = s.cmdf := by
  unfold endBlock; split <;> rfl
@[simp] theorem endBlock_pos (s : State) : (endBlock s).pos = s.pos := by
  unfold endBlock; split <;> rfl
@[simp] theorem endBlock_reqSent (s : State) : (endBlock s).reqSent = s.reqSent := by
  unfold endBlock; split <;> rfl
@[simp] theorem endBlock_gen (s : State) : (endBlock s).gen = s.gen := by
  unfold endBlock; split <;> rfl
@[simp] theorem endBlock_chk (s : State) : (endBlock s).chk = s.chk := by
  unfold endBlock; split <;> rfl
@[simp] theorem endBlock_downq (s : State) : (endBlock s).downq = s.downq := by
  unfold endBlock; split <;> rfl
@[simp] theorem endBlock_upq (s : State) : (endBlock s).upq = s.upq := by
  unfold endBlock; split <;> rfl
@[simp] theorem endBlock_fcfg (s : State) : (endBlock s).fcfg = s.fcfg := by
  unfold endBlock; split <;> rfl
@[simp] theorem endBlock_writer (s : State) : (endBlock s).writer = s.writer := by
  unfold endBlock; split <;> rfl
@[simp] theorem endBlock_reader (s : State) : (endBlock s).reader = s.reader := by
  unfold endBlock; split <;> rfl
@[simp] theorem endBlock_sampler (s : State) : (endBlock s).sampler = s.sampler := by
  unfold endBlock; split <;> rfl
@[simp] theorem endBlock_datapath (s : State) : (endBlock s).datapath = s.datapath := by
  unfold endBlock; split <;> rfl
@[simp] theorem endBlock_pads (s : State) : (endBlock s).pads = s.pads := by
  unfold endBlock; split <;> rfl
@[simp] theorem endBlock_out (s : State) : (endBlock s).out = s.out := by
  unfold endBlock; split <;> rfl
@[simp] theorem endBlock_cin (s : State) : (endBlock s).cin = s.cin := by
  unfold endBlock; split <;> rfl
@[simp] theorem endBlock_bin (s : State) : (endBlock s).bin = s.bin := by
  unfold endBlock; split <;> rfl
@[simp] theorem endBlock_env (s : State) : (endBlock s).env = s.env := by
  unfold endBlock; split <;> rfl
@[simp] theorem endBlock_time (s : State) : (endBlock s).time = s.time := by
  unfold endBlock; split <;> rfl

end Sys2Proof.Machine
end

