-- ==== Sys2Proof/Laws/Ops.lean ====
section
/-! SUPPORT. One lemma per shared operation that says all it can do: sequencing, the queues (R320 to R327),
and pops. -/

namespace Sys2Proof.Machine

/-! Sequencing. -/

@[simp] theorem andThen_next {α β : Type} (s : α) (f : α → Result β) :
    andThen (.next s) f = f s := rfl

@[simp] theorem andThen_fault {α β : Type} (r : Fault) (f : α → Result β) :
    andThen (.fault r) f = .fault r := rfl

@[simp] theorem andThen_refused {α β : Type} (r : Refusal) (f : α → Result β) :
    andThen (.refused r) f = .refused r := rfl

/-- A sequence answers next only through a next of its first part. -/
theorem andThen_eq_next {α β : Type} {o : Result α} {f : α → Result β} {t : β} :
    andThen o f = .next t ↔ ∃ s, o = .next s ∧ f s = .next t := by
  cases o <;> simp [andThen]

/-- A sequence faults in its first part or in its second. -/
theorem andThen_eq_fault {α β : Type} {o : Result α} {f : α → Result β} {r : Fault} :
    andThen o f = .fault r ↔ o = .fault r ∨ ∃ s, o = .next s ∧ f s = .fault r := by
  cases o <;> simp [andThen]

/-! The queues. -/

theorem Queue.head?_eq_some {q : Queue} {f : Frame} :
    q.head? = some f ↔ 0 < q.vis ∧ ∃ rest, q.items = f :: rest := by
  obtain ⟨items, vis, cred⟩ := q
  cases items <;> simp [Queue.head?, Queue.valid]

@[simp] theorem Queue.push_items (f : Frame) (q : Queue) : (q.push f).items = q.items ++ [f] := rfl
@[simp] theorem Queue.push_vis (f : Frame) (q : Queue) : (q.push f).vis = q.vis := rfl
@[simp] theorem Queue.push_cred (f : Frame) (q : Queue) : (q.push f).cred = q.cred - 1 := rfl
@[simp] theorem Queue.pop_items (q : Queue) : q.pop.items = q.items.tail := rfl
@[simp] theorem Queue.pop_vis (q : Queue) : q.pop.vis = q.vis - 1 := rfl
@[simp] theorem Queue.pop_cred (q : Queue) : q.pop.cred = q.cred := rfl

@[simp] theorem Queue.ready_iff (q : Queue) : q.ready = true ↔ 0 < q.cred := by
  simp [Queue.ready]

theorem QueueOk.empty : QueueOk .empty := ⟨by decide, by decide, by decide⟩

/-- A push into a ready queue keeps the bounds: "overflow is structurally impossible" (R322). -/
theorem QueueOk.push {q : Queue} (h : QueueOk q) (f : Frame) (hr : q.ready = true) :
    QueueOk (q.push f) := by
  obtain ⟨h1, h2, h3⟩ := h
  rw [Queue.ready_iff] at hr
  constructor <;> simp <;> omega

theorem QueueOk.pop {q : Queue} (h : QueueOk q) : QueueOk q.pop := by
  obtain ⟨h1, h2, h3⟩ := h
  constructor <;> simp <;> omega

theorem QueueOk.syncVis {q : Queue} (h : QueueOk q) : QueueOk q.syncVis := by
  obtain ⟨h1, h2, h3⟩ := h
  unfold Queue.syncVis
  split
  · exact ⟨h1, by assumption, h3⟩
  · exact ⟨h1, h2, h3⟩

theorem QueueOk.syncCred {q : Queue} (h : QueueOk q) : QueueOk q.syncCred := by
  obtain ⟨h1, h2, h3⟩ := h
  unfold Queue.syncCred
  split
  · exact ⟨h1, h2, by simp; omega⟩
  · exact ⟨h1, h2, h3⟩

/-- A push does not change the head the consumer sees (R323). -/
theorem Queue.head?_push {q : Queue} (h : QueueOk q) (f : Frame) : (q.push f).head? = q.head? := by
  obtain ⟨items, vis, cred⟩ := q
  have h2 := h.seen
  cases items with
  | nil =>
    have : vis = 0 := by simpa using h2
    simp [Queue.head?, Queue.valid, Queue.push, this]
  | cons g rest => rfl

/-- A visible head stays the head while frames become visible (R323, R326). -/
theorem Queue.head?_syncVis {q : Queue} {f : Frame} (h : q.head? = some f) :
    q.syncVis.head? = some f := by
  rw [Queue.head?_eq_some] at h ⊢
  obtain ⟨h0, rest, hr⟩ := h
  unfold Queue.syncVis
  split
  · exact ⟨by simp, rest, hr⟩
  · exact ⟨h0, rest, hr⟩

@[simp] theorem Queue.head?_syncCred (q : Queue) : q.syncCred.head? = q.head? := by
  unfold Queue.syncCred
  split <;> rfl

/-! Pops. -/

/-- All `popDown` does when it answers next (R323). -/
theorem popDown_eq_next {s t : State} :
    popDown s = .next t ↔ (∃ f, s.downq.head? = some f) ∧ t = { s with downq := s.downq.pop } := by
  unfold popDown
  cases s.downq.head? <;> simp [eq_comm]

/-- All `popUp` does when it answers next (R323). -/
theorem popUp_eq_next {s t : State} :
    popUp s = .next t ↔ (∃ f, s.upq.head? = some f) ∧ t = { s with upq := s.upq.pop } := by
  unfold popUp
  cases s.upq.head? <;> simp [eq_comm]

theorem popDown_of_head {s : State} {f : Frame} (h : s.downq.head? = some f) :
    popDown s = .next { s with downq := s.downq.pop } := by
  simp [popDown, h]

theorem popUp_of_head {s : State} {f : Frame} (h : s.upq.head? = some f) :
    popUp s = .next { s with upq := s.upq.pop } := by
  simp [popUp, h]

end Sys2Proof.Machine
end

