-- ==== Sys2Proof/Laws/Decode.lean ====
section
/-! SUPPORT. What the decoders read (R112, R113): the fields of a tag put together again, and what `exec`
does with the operation that the visible frame of a queue decodes to. -/

namespace Sys2Proof

/-! Fields. -/

set_option maxRecDepth 20000 in
/-- An up tag is its three fields (R96). -/
theorem up_fields : ∀ c : Byte,
    c.extractLsb' 5 3 ++ c.extractLsb' 1 4 ++ BitVec.ofBool (c.getLsbD 0) = c := by
  decide

set_option maxRecDepth 20000 in
/-- A down tag is its mode and its two low bits (R92). -/
theorem down_fields : ∀ c : Byte,
    c.extractLsb' 2 6 ++ (BitVec.ofBool (c.getLsbD 1) ++ BitVec.ofBool (c.getLsbD 0)) = c := by
  decide

set_option maxRecDepth 20000 in
/-- The two low bits of a tag. -/
theorem low_fields : ∀ c : Byte,
    c.extractLsb' 0 2 = BitVec.ofBool (c.getLsbD 1) ++ BitVec.ofBool (c.getLsbD 0) := by
  decide

/-- The channel of a tag bit (R94). -/
def channelOf (b : Bool) : Channel := if b then .data else .cmd

/-- The direction of a tag bit (R94). -/
def directionOf (b : Bool) : Direction := if b then .write else .read

@[simp] theorem channelOf_bit (b : Bool) : (channelOf b).bit = BitVec.ofBool b := by cases b <;> rfl

@[simp] theorem directionOf_bit (b : Bool) : (directionOf b).bit = BitVec.ofBool b := by
  cases b <;> rfl

/-- An up frame is made of its own fields. -/
theorem upFrame_self {f : Frame} {st : Status} (h : f.status.toNat = st.code.toNat) :
    upFrame f.resBits st (channelOf (f.ctrl.getLsbD 0)) f.data f.last = f := by
  have hs : st.code = f.status := (BitVec.eq_of_toNat_eq h).symm
  obtain ⟨d, c, l⟩ := f
  simp only [upFrame, upTag, Frame.mk.injEq, true_and, and_true, hs, Frame.status, Frame.resBits,
    channelOf_bit]
  exact up_fields c

/-- The mode of a value has that value. -/
theorem ModeEncoding.code_of_mode? {e : ModeEncoding} {c : BitVec 6} {m : Mode}
    (h : e.mode? c = some m) : e.code m = c := by
  have := List.find?_some h
  simpa using this

/-- With an injective encoding the value of a mode names that mode (D3). -/
theorem ModeEncoding.mode?_code {e : ModeEncoding} (h : e.injective = true) (m : Mode) :
    e.mode? (e.code m) = some m := by
  have hn : (Mode.all.map e.code).Nodup := by simpa [ModeEncoding.injective] using h
  have hall : ∀ m, m ∈ Mode.all := by intro m; cases m <;> decide
  cases hf : e.mode? (e.code m) with
  | none => simpa using List.find?_eq_none.mp hf m (hall m)
  | some m' => rw [List.inj_on_of_nodup_map hn (hall _) (hall _) (ModeEncoding.code_of_mode? hf)]

/-- The mode field of a tag (R92, R93). -/
theorem modeBits_tag (e : ModeEncoding) (ch : Channel) (dir : Direction) (m : Mode) (d : Byte) (l : Bool) :
    Frame.modeBits ⟨d, tag e ch dir m, l⟩ = e.code m := by
  simp only [Frame.modeBits, tag, downTag]
  generalize e.code m = x
  revert x
  cases ch <;> cases dir <;> decide

/-- The channel bit of a tag (R92, R94). -/
theorem tag_channel (e : ModeEncoding) (ch : Channel) (dir : Direction) (m : Mode) :
    (tag e ch dir m).getLsbD 0 = (ch == .data) := by
  simp only [tag, downTag]
  generalize e.code m = x
  revert x
  cases ch <;> cases dir <;> decide

/-- The direction bit of a tag (R92, R94). -/
theorem tag_direction (e : ModeEncoding) (ch : Channel) (dir : Direction) (m : Mode) :
    (tag e ch dir m).getLsbD 1 = (dir == .write) := by
  simp only [tag, downTag]
  generalize e.code m = x
  revert x
  cases ch <;> cases dir <;> decide

/-- An XFER frame is made of its own fields. -/
theorem xferFrame_self {c : Config} {f : Frame} (h : c.modes.mode? f.modeBits = some .xfer) :
    xferFrame c (channelOf (f.ctrl.getLsbD 0)) (directionOf (f.ctrl.getLsbD 1)) f.data f.last = f := by
  have hm := ModeEncoding.code_of_mode? h
  obtain ⟨d, t, l⟩ := f
  simp only [xferFrame, tag, downTag, Frame.mk.injEq, true_and, and_true, hm, Frame.modeBits,
    channelOf_bit, directionOf_bit]
  exact down_fields t

namespace Machine

/-- The operation an up frame decodes to does what the orchestrator does with that frame (R113, R206 to
R212). -/
theorem exec_of_decodeUp {f : Frame} {i : Instr} (h : decodeUp f = .ok i) (s : State) :
    exec i s = consumeUp f s := by
  unfold decodeUp at h
  split at h <;> cases h
  all_goals rename_i hb hs
  · have := upFrame_self (f := f) (st := .ok) hs; simp only [hb, channelOf] at this
    exact congrArg (fun g => consumeUp g s) this
  · have := upFrame_self (f := f) (st := .ok) hs; simp only [hb, channelOf] at this
    exact congrArg (fun g => consumeUp g s) this
  · have := upFrame_self (f := f) (st := .timeout) hs; simp only [hb, channelOf] at this
    exact congrArg (fun g => consumeUp g s) this
  · have := upFrame_self (f := f) (st := .timeout) hs; simp only [hb, channelOf] at this
    exact congrArg (fun g => consumeUp g s) this
  · have := upFrame_self (f := f) (st := .dataAccepted) hs; simp only [hb, channelOf] at this
    exact congrArg (fun g => consumeUp g s) this
  · have := upFrame_self (f := f) (st := .crcError) hs; simp only [hb, channelOf] at this
    exact congrArg (fun g => consumeUp g s) this
  · have := upFrame_self (f := f) (st := .writeError) hs; simp only [hb, channelOf] at this
    exact congrArg (fun g => consumeUp g s) this

/-- The orchestrator treats the visible frame of `UPQ` by one rule, whatever it decodes to (R113, R122). -/
theorem consume_eq (s : State) :
    consume s = match s.upq.head? with
      | none => .next s
      | some f => consumeUp f s := by
  unfold consume
  cases s.upq.head? with
  | none => rfl
  | some f =>
    cases h : decodeUp f with
    | ok i => simp only [h, exec_of_decodeUp h]
    | error e => simp only [h]

/-- What starts when an XFER frame is dispatched (R223): by channel, then direction. -/
def dispatchXfer (f : Frame) (s : State) : Result State :=
  match f.ctrl.getLsbD 0, f.ctrl.getLsbD 1 with
  | false, false => .next { idleTick s with reader := s.reader.start f }
  | true, false => datapathRead s
  | false, true => .next { idleTick s with writer := s.writer.start }
  | true, true => datapathWrite f.last s

/-- What a bus tick does with the visible frame of `DOWNQ` (R112, R223, R224, R236). -/
theorem exec_of_decodeDown {s : State} {f : Frame} {i : Instr} (h : decodeDown s.cfg f = .ok i) :
    (s.cfg.modes.mode? f.modeBits = some .xfer ∧ exec i s = xferTick f (dispatchXfer f) s) ∨
    (∃ m, m ≠ .xfer ∧ s.cfg.modes.mode? f.modeBits = some m ∧ exec i s = latchTick m f.data s) := by
  unfold decodeDown at h
  cases hm : s.cfg.modes.mode? f.modeBits with
  | none => simp [hm] at h
  | some m =>
    have hx := fun hm => xferFrame_self (c := s.cfg) (f := f) hm
    cases m with
    | xfer =>
      refine .inl ⟨rfl, ?_⟩
      specialize hx hm
      simp only [hm] at h
      split at h <;> cases h <;> rename_i h0 h1 <;>
        simp only [h0, h1, channelOf, directionOf, if_true, if_false, Bool.false_eq_true] at hx
      · show execFdCmdRd f.data f.last s = _
        unfold execFdCmdRd
        simp only [hx, xferTick]
        split <;> simp only [dispatchXfer, h0, h1]
      · show execFdDataRd f.data f.last s = _
        unfold execFdDataRd
        simp only [hx, xferTick]
        split <;> simp only [dispatchXfer, h0, h1]
      · show execFdCmdWr f.data f.last s = _
        unfold execFdCmdWr
        simp only [hx, xferTick]
        split <;> simp only [dispatchXfer, h0, h1]
      · show execFdDataWr f.data f.last s = _
        unfold execFdDataWr
        simp only [hx, xferTick]
        split <;> simp only [dispatchXfer, h0, h1]
    | tc0 => refine .inr ⟨.tc0, by decide, rfl, ?_⟩; simp only [hm] at h; cases h; rfl
    | tc1 => refine .inr ⟨.tc1, by decide, rfl, ?_⟩; simp only [hm] at h; cases h; rfl
    | tc2 => refine .inr ⟨.tc2, by decide, rfl, ?_⟩; simp only [hm] at h; cases h; rfl
    | tc3 => refine .inr ⟨.tc3, by decide, rfl, ?_⟩; simp only [hm] at h; cases h; rfl
    | td0 => refine .inr ⟨.td0, by decide, rfl, ?_⟩; simp only [hm] at h; cases h; rfl
    | td1 => refine .inr ⟨.td1, by decide, rfl, ?_⟩; simp only [hm] at h; cases h; rfl
    | td2 => refine .inr ⟨.td2, by decide, rfl, ?_⟩; simp only [hm] at h; cases h; rfl
    | td3 => refine .inr ⟨.td3, by decide, rfl, ?_⟩; simp only [hm] at h; cases h; rfl
    | bs0 => refine .inr ⟨.bs0, by decide, rfl, ?_⟩; simp only [hm] at h; cases h; rfl
    | bs1 => refine .inr ⟨.bs1, by decide, rfl, ?_⟩; simp only [hm] at h; cases h; rfl
    | volt => refine .inr ⟨.volt, by decide, rfl, ?_⟩; simp only [hm] at h; cases h; rfl

/-- A bus tick, by what is at the head of `DOWNQ` (R223): nothing visible, an XFER frame, a configuration
frame, or a frame of a reserved mode. -/
theorem busStep_eq (s : State) :
    busStep s = match s.downq.head? with
      | none => machinesTick none s
      | some f => match s.cfg.modes.mode? f.modeBits with
        | none => discardTick s
        | some .xfer => xferTick f (dispatchXfer f) s
        | some m => latchTick m f.data s := by
  unfold busStep
  cases s.downq.head? with
  | none => rfl
  | some f =>
    cases hd : decodeDown s.cfg f with
    | ok j =>
      simp only [hd]
      rcases exec_of_decodeDown hd with ⟨hm, he⟩ | ⟨m, hne, hm, he⟩ <;> rw [he, hm]
      cases m <;> first | rfl | exact absurd rfl hne
    | error e =>
      have : s.cfg.modes.mode? f.modeBits = none := by
        unfold decodeDown at hd
        split at hd <;> first | assumption | (split at hd <;> cases hd) | cases hd
      simp only [hd, this]

/-- A bus tick with an XFER frame at the head of `DOWNQ` (R223). -/
theorem busStep_xfer {s : State} {f : Frame} {ch : Channel} {dir : Direction}
    (hi : s.cfg.modes.injective = true) (hf : s.downq.head? = some f)
    (ht : f.ctrl = tag s.cfg.modes ch dir .xfer) :
    busStep s = xferTick f (dispatchXfer f) s := by
  have hm : s.cfg.modes.mode? f.modeBits = some .xfer := by
    have : f.modeBits = s.cfg.modes.code .xfer := by
      obtain ⟨d, c, l⟩ := f
      simp only at ht
      rw [ht, modeBits_tag]
    rw [this, ModeEncoding.mode?_code hi]
  rw [busStep_eq, hf]
  simp only [hm]

end Machine

end Sys2Proof
end

