-- ==== Sys2Proof/Laws/Framer.lean ====
section
/-! SUPPORT. What a bus tick can do: one inversion lemma for the machines (R238 to R253), one for each down
operation's shared tick (R224, R236, R262, R263). -/

namespace Sys2Proof.Machine

@[simp] theorem bothIdle_iff (s : State) :
    bothIdle s = true ↔ s.writer.st = .idle ∧ s.reader.st = .idle := by
  simp [bothIdle]

theorem bothIdle_false_iff (s : State) :
    bothIdle s = false ↔ ¬(s.writer.st = .idle ∧ s.reader.st = .idle) := by
  rw [← bothIdle_iff, Bool.not_eq_true]

/-! Which machine runs (R223, R257). -/

theorem xferTick_idle (f : Frame) (st : State → Result State) {s : State} (hw : s.writer.st = .idle)
    (hr : s.reader.st = .idle) : xferTick f st s = st s := by
  unfold xferTick
  rw [if_pos ((bothIdle_iff s).mpr ⟨hw, hr⟩)]

theorem xferTick_busy (f : Frame) (st : State → Result State) {s : State}
    (h : ¬(s.writer.st = .idle ∧ s.reader.st = .idle)) :
    xferTick f st s = machinesTick (some f) s := by
  unfold xferTick
  rw [if_neg (by rw [bothIdle_iff]; exact h)]

theorem machinesTick_reader (h : Option Frame) {s : State} (hw : s.writer.st = .idle) :
    machinesTick h s = readerTick s := by
  unfold machinesTick
  rw [if_pos hw]

theorem machinesTick_writer (h : Option Frame) {s : State} (hw : s.writer.st ≠ .idle)
    (hr : s.reader.st = .idle) : machinesTick h s = writerTick h s := by
  unfold machinesTick
  rw [if_neg hw, if_pos hr]

theorem machinesTick_idle (h : Option Frame) {s : State} (hw : s.writer.st = .idle)
    (hr : s.reader.st = .idle) : machinesTick h s = .next (idleTick s) := by
  rw [machinesTick_reader h hw]
  unfold readerTick
  rw [hr]

/-! One tick of the writer, by its state (R239 to R241). -/

theorem writerTick_init (h : Option Frame) {s : State} (hw : s.writer.st = .init) :
    writerTick h s =
      .next { s with sampler := .off, pads := initPads s, writer := s.writer.initTick } := by
  unfold writerTick
  simp only
  split
  · exact absurd (hw.symm.trans ‹_›) (by decide)
  · rfl
  · exact absurd (hw.symm.trans ‹_›) (by decide)
  · exact absurd (hw.symm.trans ‹_›) (by decide)

theorem writerTick_clk8 (h : Option Frame) {s : State} (hw : s.writer.st = .cmdClk8) :
    writerTick h s =
      .next { s with sampler := .off, pads := drivePads s true, writer := s.writer.clk8Tick } := by
  unfold writerTick
  simp only
  split
  · exact absurd (hw.symm.trans ‹_›) (by decide)
  · exact absurd (hw.symm.trans ‹_›) (by decide)
  · rfl
  · exact absurd (hw.symm.trans ‹_›) (by decide)

theorem writerTick_bit (f : Frame) {s : State} (hw : s.writer.st = .cmdWrite) (hb : s.writer.bit ≠ 7) :
    writerTick (some f) s = .next { s with
      sampler := .off
      pads := drivePads s (f.data.getLsbD (7 - s.writer.bit.toNat))
      writer := { s.writer with bit := s.writer.bit + 1 } } := by
  unfold writerTick
  simp only
  split
  · exact absurd (hw.symm.trans ‹_›) (by decide)
  · exact absurd (hw.symm.trans ‹_›) (by decide)
  · exact absurd (hw.symm.trans ‹_›) (by decide)
  · rw [if_neg hb]
    rfl

theorem writerTick_lastBit (f : Frame) {s : State} {g : Frame} (hw : s.writer.st = .cmdWrite)
    (hb : s.writer.bit = 7) (hg : s.downq.head? = some g) :
    writerTick (some f) s = .next { s with
      sampler := .off
      pads := drivePads s (f.data.getLsbD 0)
      downq := s.downq.pop
      writer := s.writer.byteDone f.last } := by
  have h0 : 7 - s.writer.bit.toNat = 0 := by rw [hb]; rfl
  unfold writerTick
  simp only
  split
  · exact absurd (hw.symm.trans ‹_›) (by decide)
  · exact absurd (hw.symm.trans ‹_›) (by decide)
  · exact absurd (hw.symm.trans ‹_›) (by decide)
  · rw [if_pos hb, popDown_of_head (f := g), h0]
    · rfl
    · exact hg

/-! One tick of the reader, by its state (R245 to R249). -/

theorem readerTick_wait {s : State} (hr : s.reader.st = .cmdReadstart) :
    readerTick s = .next { s with
      pads := releasePads s true
      sampler := (s.sampler.sample s.bin.cmdI).1
      reader := s.reader.waitTick s.fcfg.cmdtimeout s.sampler } := by
  unfold readerTick
  split
  · exact absurd (hr.symm.trans ‹_›) (by decide)
  · rfl
  all_goals exact absurd (hr.symm.trans ‹_›) (by decide)

theorem readerTick_full {s : State} (hr : s.reader.st = .cmdRead) (hq : s.upq.ready = false) :
    readerTick s = .next { s with pads := releasePads s false } := by
  unfold readerTick
  split
  · exact absurd (hr.symm.trans ‹_›) (by decide)
  · exact absurd (hr.symm.trans ‹_›) (by decide)
  · rw [if_neg (by rw [hq]; decide)]
  all_goals exact absurd (hr.symm.trans ‹_›) (by decide)

theorem readerTick_sample {s : State} (hr : s.reader.st = .cmdRead) (hq : s.upq.ready = true)
    (hb : (s.sampler.sample s.bin.cmdI).2 = none) :
    readerTick s = .next { s with
      pads := releasePads s true, sampler := (s.sampler.sample s.bin.cmdI).1 } := by
  unfold readerTick
  split
  · exact absurd (hr.symm.trans ‹_›) (by decide)
  · exact absurd (hr.symm.trans ‹_›) (by decide)
  · rw [if_pos hq]
    simp only
    rw [hb]
  all_goals exact absurd (hr.symm.trans ‹_›) (by decide)

theorem readerTick_byte {s : State} {b : Byte} (hr : s.reader.st = .cmdRead) (hq : s.upq.ready = true)
    (hb : (s.sampler.sample s.bin.cmdI).2 = some b) :
    readerTick s = forwardByte b { s with
      pads := releasePads s true, sampler := (s.sampler.sample s.bin.cmdI).1 } := by
  unfold readerTick
  split
  · exact absurd (hr.symm.trans ‹_›) (by decide)
  · exact absurd (hr.symm.trans ‹_›) (by decide)
  · rw [if_pos hq]
    simp only
    rw [hb]
  all_goals exact absurd (hr.symm.trans ‹_›) (by decide)

theorem readerTick_clk8 {s : State} (hr : s.reader.st = .cmdClk8) :
    readerTick s = .next { s with
      pads := drivePads s true, sampler := .off, reader := s.reader.clk8Tick } := by
  unfold readerTick
  split
  · exact absurd (hr.symm.trans ‹_›) (by decide)
  · exact absurd (hr.symm.trans ‹_›) (by decide)
  · exact absurd (hr.symm.trans ‹_›) (by decide)
  · rfl
  · exact absurd (hr.symm.trans ‹_›) (by decide)

theorem readerTick_timeoutFull {s : State} (hr : s.reader.st = .timeout) (hq : s.upq.ready = false) :
    readerTick s = .next (idleTick s) := by
  unfold readerTick
  split
  · rfl
  · exact absurd (hr.symm.trans ‹_›) (by decide)
  · exact absurd (hr.symm.trans ‹_›) (by decide)
  · exact absurd (hr.symm.trans ‹_›) (by decide)
  · simp only
    rw [if_neg (by rw [idleTick_upq, hq]; decide)]

theorem readerTick_timeout {s : State} {g : Frame} (hr : s.reader.st = .timeout)
    (hq : s.upq.ready = true) (hg : s.downq.head? = some g) :
    readerTick s = .next { s with
      pads := idlePads s
      sampler := .off
      upq := s.upq.push timeoutReport
      downq := s.downq.pop
      reader := { s.reader with st := .idle } } := by
  unfold readerTick
  split
  · exact absurd (hr.symm.trans ‹_›) (by decide)
  · exact absurd (hr.symm.trans ‹_›) (by decide)
  · exact absurd (hr.symm.trans ‹_›) (by decide)
  · exact absurd (hr.symm.trans ‹_›) (by decide)
  · simp only
    rw [if_pos (by rw [idleTick_upq]; exact hq), popDown_of_head (f := g)]
    · rfl
    · exact hg

theorem forwardByte_more (b : Byte) {s : State} (hl : s.reader.lastByte s.cfg = false) :
    forwardByte b s = .next { s with
      upq := s.upq.push { data := b, ctrl := utag .cmd Status.ok.code, last := false }
      reader := { s.reader with cread := s.reader.cread + 1 } } := by
  unfold forwardByte
  simp only
  rw [hl]
  rfl

theorem forwardByte_last (b : Byte) {s : State} {g : Frame} (hl : s.reader.lastByte s.cfg = true)
    (hg : s.downq.head? = some g) :
    forwardByte b s = .next { s with
      upq := s.upq.push { data := b, ctrl := utag .cmd Status.ok.code, last := true }
      downq := s.downq.pop
      reader := if s.reader.last then { s.reader with st := .cmdClk8, cnt := 0 }
                else { s.reader with st := .idle } } := by
  unfold forwardByte
  simp only
  rw [hl, if_pos rfl, popDown_of_head (f := g)]
  · rfl
  · exact hg

/-! The configuration latch with both machines IDLE (R224). -/

theorem latchTick_idle (m : Mode) (b : Byte) {s : State} {g : Frame} (hw : s.writer.st = .idle)
    (hr : s.reader.st = .idle) (hg : s.downq.head? = some g) :
    latchTick m b s = .next { s with
      pads := idlePads s
      sampler := .off
      downq := s.downq.pop
      fcfg := latchByte s.cfg.byteOrder m b s.fcfg } := by
  unfold latchTick
  rw [machinesTick_idle none hw hr, andThen_next, popDown_of_head (s := idleTick s) hg]
  rfl

/-! The inversions: all a tick can do. -/

/-- All the writer can do in a tick out of IDLE (R239 to R241). -/
theorem writerTick_eq_next {h : Option Frame} {s t : State} (hw : s.writer.st ≠ .idle)
    (e : writerTick h s = .next t) :
    (s.writer.st = .init ∧
      t = { s with sampler := .off, pads := initPads s, writer := s.writer.initTick }) ∨
    (s.writer.st = .cmdClk8 ∧
      t = { s with sampler := .off, pads := drivePads s true, writer := s.writer.clk8Tick }) ∨
    (s.writer.st = .cmdWrite ∧ s.writer.bit ≠ 7 ∧ ∃ f, h = some f ∧
      t = { s with
        sampler := .off
        pads := drivePads s (f.data.getLsbD (7 - s.writer.bit.toNat))
        writer := { s.writer with bit := s.writer.bit + 1 } }) ∨
    (s.writer.st = .cmdWrite ∧ s.writer.bit = 7 ∧ (∃ g, s.downq.head? = some g) ∧ ∃ f, h = some f ∧
      t = { s with
        sampler := .off
        pads := drivePads s (f.data.getLsbD (7 - s.writer.bit.toNat))
        downq := s.downq.pop
        writer := s.writer.byteDone f.last }) := by
  unfold writerTick at e
  cases hst : s.writer.st with
  | idle => exact absurd hst hw
  | init => simp only [hst] at e; cases e; exact .inl ⟨rfl, rfl⟩
  | cmdClk8 => simp only [hst] at e; cases e; exact .inr (.inl ⟨rfl, rfl⟩)
  | cmdWrite =>
    simp only [hst] at e
    cases h with
    | none => cases e
    | some f =>
      by_cases hb : s.writer.bit = 7
      · simp only [hb, if_true, andThen_eq_next, popDown_eq_next] at e
        obtain ⟨_, ⟨hg, rfl⟩, e⟩ := e
        cases e
        exact .inr (.inr (.inr ⟨rfl, hb, hg, f, rfl, by simp [hb]; rfl⟩))
      · simp only [hb, if_false] at e
        cases e
        exact .inr (.inr (.inl ⟨rfl, hb, f, rfl, by simp only [hst]; rfl⟩))

/-- All a completed byte can do (R246). -/
theorem forwardByte_eq_next {b : Byte} {s t : State} (e : forwardByte b s = .next t) :
    (s.reader.lastByte s.cfg = false ∧
      t = { s with
        upq := s.upq.push { data := b, ctrl := utag .cmd Status.ok.code, last := false }
        reader := { s.reader with cread := s.reader.cread + 1 } }) ∨
    (s.reader.lastByte s.cfg = true ∧ (∃ g, s.downq.head? = some g) ∧
      t = { s with
        upq := s.upq.push { data := b, ctrl := utag .cmd Status.ok.code, last := true }
        downq := s.downq.pop
        reader := if s.reader.last then { s.reader with st := .cmdClk8, cnt := 0 }
                  else { s.reader with st := .idle } }) := by
  unfold forwardByte at e
  cases hl : s.reader.lastByte s.cfg with
  | false => simp only [hl] at e; cases e; exact .inl ⟨rfl, rfl⟩
  | true =>
    simp only [hl, if_true, andThen_eq_next, popDown_eq_next] at e
    obtain ⟨_, ⟨hg, rfl⟩, e⟩ := e
    cases e
    exact .inr ⟨rfl, hg, rfl⟩

/-- All the reader can do in a tick (R244 to R249). -/
theorem readerTick_eq_next {s t : State} (e : readerTick s = .next t) :
    (s.reader.st = .idle ∧ t = idleTick s) ∨
    (s.reader.st = .cmdReadstart ∧
      t = { s with
        pads := releasePads s true
        sampler := (s.sampler.sample s.bin.cmdI).1
        reader := s.reader.waitTick s.fcfg.cmdtimeout s.sampler }) ∨
    (s.reader.st = .cmdRead ∧ s.upq.ready = false ∧ t = { s with pads := releasePads s false }) ∨
    (s.reader.st = .cmdRead ∧ s.upq.ready = true ∧ (s.sampler.sample s.bin.cmdI).2 = none ∧
      t = { s with pads := releasePads s true, sampler := (s.sampler.sample s.bin.cmdI).1 }) ∨
    (s.reader.st = .cmdRead ∧ s.upq.ready = true ∧ ∃ b, (s.sampler.sample s.bin.cmdI).2 = some b ∧
      forwardByte b { s with
        pads := releasePads s true, sampler := (s.sampler.sample s.bin.cmdI).1 } = .next t) ∨
    (s.reader.st = .cmdClk8 ∧
      t = { s with pads := drivePads s true, sampler := .off, reader := s.reader.clk8Tick }) ∨
    (s.reader.st = .timeout ∧ s.upq.ready = false ∧ t = idleTick s) ∨
    (s.reader.st = .timeout ∧ s.upq.ready = true ∧ (∃ g, s.downq.head? = some g) ∧
      t = { s with
        pads := idlePads s
        sampler := .off
        upq := s.upq.push timeoutReport
        downq := s.downq.pop
        reader := { s.reader with st := .idle } }) := by
  unfold readerTick at e
  cases hst : s.reader.st with
  | idle => simp only [hst] at e; cases e; exact .inl ⟨rfl, rfl⟩
  | cmdReadstart => simp only [hst] at e; cases e; exact .inr (.inl ⟨rfl, rfl⟩)
  | cmdRead =>
    simp only [hst] at e
    cases hr : s.upq.ready with
    | false => simp [hr] at e; exact .inr (.inr (.inl ⟨rfl, rfl, e.symm⟩))
    | true =>
      simp only [hr, if_true] at e
      cases hb : (s.sampler.sample s.bin.cmdI).2 with
      | none => simp only [hb] at e; cases e; exact .inr (.inr (.inr (.inl ⟨rfl, rfl, rfl, rfl⟩)))
      | some b =>
        simp only [hb] at e
        exact .inr (.inr (.inr (.inr (.inl ⟨rfl, rfl, b, rfl, e⟩))))
  | cmdClk8 =>
    simp only [hst] at e; cases e
    exact .inr (.inr (.inr (.inr (.inr (.inl ⟨rfl, rfl⟩)))))
  | timeout =>
    simp only [hst, idleTick_upq] at e
    cases hr : s.upq.ready with
    | false =>
      simp [hr] at e
      exact .inr (.inr (.inr (.inr (.inr (.inr (.inl ⟨rfl, rfl, e.symm⟩))))))
    | true =>
      simp only [hr, if_true, andThen_eq_next, popDown_eq_next] at e
      obtain ⟨_, ⟨hg, rfl⟩, e⟩ := e
      cases e
      exact .inr (.inr (.inr (.inr (.inr (.inr (.inr ⟨rfl, rfl, hg, rfl⟩))))))

/-- The machines run one of the two that is out of IDLE (R257). -/
theorem machinesTick_eq_next {h : Option Frame} {s t : State} (e : machinesTick h s = .next t) :
    (s.writer.st = .idle ∧ readerTick s = .next t) ∨
    (s.writer.st ≠ .idle ∧ s.reader.st = .idle ∧ writerTick h s = .next t) := by
  unfold machinesTick at e
  split at e
  · exact .inl ⟨‹_›, e⟩
  · split at e
    · exact .inr ⟨‹_›, ‹_›, e⟩
    · cases e

/-- All the configuration latch can do (R224). -/
theorem latchTick_eq_next {m : Mode} {b : Byte} {s t : State} (e : latchTick m b s = .next t) :
    ∃ u, machinesTick none s = .next u ∧ (∃ g, u.downq.head? = some g) ∧
      t = { u with downq := u.downq.pop, fcfg := latchByte u.cfg.byteOrder m b u.fcfg } := by
  simp only [latchTick, andThen_eq_next, popDown_eq_next] at e
  obtain ⟨u, hu, _, ⟨hg, rfl⟩, e⟩ := e
  cases e
  exact ⟨u, hu, hg, rfl⟩

/-- All a frame of a reserved mode can do (R236). -/
theorem discardTick_eq_next {s t : State} (e : discardTick s = .next t) :
    ∃ u, machinesTick none s = .next u ∧ (∃ g, u.downq.head? = some g) ∧
      t = { u with downq := u.downq.pop } := by
  simp only [discardTick, andThen_eq_next, popDown_eq_next] at e
  exact e

/-- All DATAPATH can do with a read request (R262). -/
theorem datapathRead_eq_next {s t : State} (e : datapathRead s = .next t) :
    (t = { s with pads := datapathPads s, sampler := .off }) ∨
    (s.upq.ready = true ∧ ∃ b, s.bin.dp = .deliver b ∧
      s.datapath.sent + 1 < s.fcfg.blocksize.toNat + 2 ∧
      t = { s with
        pads := datapathPads s
        sampler := .off
        upq := s.upq.push { data := b, ctrl := utag .data Status.ok.code, last := false }
        datapath := { s.datapath with sent := s.datapath.sent + 1 } }) ∨
    (s.upq.ready = true ∧ ∃ b, s.bin.dp = .deliver b ∧
      s.fcfg.blocksize.toNat + 2 ≤ s.datapath.sent + 1 ∧ (∃ g, s.downq.head? = some g) ∧
      t = { s with
        pads := datapathPads s
        sampler := .off
        upq := s.upq.push { data := b, ctrl := utag .data Status.ok.code, last := true }
        downq := s.downq.pop
        datapath := .free }) ∨
    (s.upq.ready = true ∧ s.bin.dp = .timeout ∧ (∃ g, s.downq.head? = some g) ∧
      t = { s with
        pads := datapathPads s
        sampler := .off
        upq := s.upq.push { data := 0, ctrl := utag .data Status.timeout.code, last := true }
        downq := s.downq.pop
        datapath := .free }) := by
  unfold datapathRead at e
  cases hr : s.upq.ready with
  | false => simp [hr] at e; exact .inl e.symm
  | true =>
    simp only [hr, if_true] at e
    cases hd : s.bin.dp with
    | wait => simp only [hd] at e; cases e; exact .inl rfl
    | take => simp only [hd] at e; cases e; exact .inl rfl
    | ack st p => simp only [hd] at e; cases e; exact .inl rfl
    | timeout =>
      simp only [hd, andThen_eq_next, popDown_eq_next] at e
      obtain ⟨_, ⟨hg, rfl⟩, e⟩ := e
      cases e
      exact .inr (.inr (.inr ⟨rfl, rfl, hg, rfl⟩))
    | deliver b =>
      simp only [hd] at e
      by_cases hl : s.fcfg.blocksize.toNat + 2 ≤ s.datapath.sent + 1
      · simp only [hl, decide_true, if_true, andThen_eq_next, popDown_eq_next] at e
        obtain ⟨_, ⟨hg, rfl⟩, e⟩ := e
        cases e
        exact .inr (.inr (.inl ⟨rfl, b, rfl, hl, hg, rfl⟩))
      · simp only [hl, decide_false] at e
        cases e
        exact .inr (.inl ⟨rfl, b, rfl, by omega, rfl⟩)

/-- All DATAPATH can do with a byte of a write block (R263). -/
theorem datapathWrite_eq_next {last : Bool} {s t : State} (e : datapathWrite last s = .next t) :
    (t = { s with pads := datapathPads s, sampler := .off }) ∨
    (s.bin.dp = .take ∧ (last = false ∨ s.datapath.acked = true) ∧ (∃ g, s.downq.head? = some g) ∧
      t = { s with
        pads := datapathPads s
        sampler := .off
        downq := s.downq.pop
        datapath := .free }) ∨
    (last = true ∧ s.datapath.acked = false ∧ s.upq.ready = true ∧ ∃ st,
      (s.bin.dp = .ack st false ∧ t = { s with
        pads := datapathPads s
        sampler := .off
        upq := s.upq.push (ackFrame st)
        datapath := { s.datapath with acked := true } }) ∨
      (s.bin.dp = .ack st true ∧ (∃ g, s.downq.head? = some g) ∧ t = { s with
        pads := datapathPads s
        sampler := .off
        upq := s.upq.push (ackFrame st)
        downq := s.downq.pop
        datapath := .free })) := by
  unfold datapathWrite at e
  cases hd : s.bin.dp with
  | wait => simp only [hd] at e; cases e; exact .inl rfl
  | deliver b => simp only [hd] at e; cases e; exact .inl rfl
  | timeout => simp only [hd] at e; cases e; exact .inl rfl
  | take =>
    simp only [hd] at e
    split at e
    · rename_i hc
      simp only [andThen_eq_next, popDown_eq_next] at e
      obtain ⟨_, ⟨hg, rfl⟩, e⟩ := e
      cases e
      exact .inr (.inl ⟨rfl, by simpa using hc, hg, rfl⟩)
    · cases e; exact .inl rfl
  | ack st p =>
    simp only [hd] at e
    split at e
    · rename_i hc
      obtain ⟨⟨h1, h2⟩, h3⟩ : (last = true ∧ s.datapath.acked = false) ∧ s.upq.ready = true := by
        simpa using hc
      cases p with
      | false => cases e; exact .inr (.inr ⟨h1, h2, h3, st, .inl ⟨rfl, rfl⟩⟩)
      | true =>
        simp only [if_true, andThen_eq_next, popDown_eq_next] at e
        obtain ⟨_, ⟨hg, rfl⟩, e⟩ := e
        cases e
        exact .inr (.inr ⟨h1, h2, h3, st, .inr ⟨rfl, hg, rfl⟩⟩)
    · cases e; exact .inl rfl

end Sys2Proof.Machine
end

