-- ==== Sys2Proof/Laws/Operands.lean ====
section
/-! SUPPORT. Bytes of a field (R66, R224): reading a byte after writing one, and that a field is its bytes. -/

namespace Sys2Proof.Machine

theorem getLsbD_byteAt {w : Nat} (v : BitVec w) (k i : Nat) :
    (byteAt v k).getLsbD i = (decide (i < 8) && v.getLsbD (8 * k + i)) := by
  simp [byteAt]

theorem getLsbD_setByteAt {w : Nat} (v : BitVec w) (k : Nat) (b : Byte) (i : Nat) (hi : i < w) :
    (setByteAt v k b).getLsbD i =
      if 8 * k ≤ i ∧ i < 8 * k + 8 then b.getLsbD (i - 8 * k) else v.getLsbD i := by
  have hm : (0xFF#8).getLsbD (i - 8 * k) = decide (i - 8 * k < 8) := by
    by_cases h : i - 8 * k < 8
    · have : ∀ n, n < 8 → (0xFF#8).getLsbD n = true := by decide
      rw [this _ h, decide_eq_true h]
    · rw [BitVec.getLsbD_of_ge _ _ (by omega), decide_eq_false h]
  by_cases h1 : 8 * k ≤ i
  · by_cases h2 : i < 8 * k + 8
    · rw [if_pos ⟨h1, h2⟩]
      simp only [setByteAt, BitVec.getLsbD_or, BitVec.getLsbD_and, BitVec.getLsbD_not,
        BitVec.getLsbD_shiftLeft, BitVec.getLsbD_setWidth, hm, hi, show ¬ i < 8 * k by omega,
        show i - 8 * k < 8 by omega, show i - 8 * k < w by omega, decide_true, decide_false]
      simp
    · rw [if_neg (by omega)]
      have : b.getLsbD (i - 8 * k) = false := BitVec.getLsbD_of_ge _ _ (by omega)
      simp [setByteAt, hi, hm, this, show ¬ i - 8 * k < 8 by omega]
  · rw [if_neg (by omega)]
    simp [setByteAt, hi, show i < 8 * k by omega]

/-- The byte written is the byte read. -/
theorem byteAt_setByteAt_same {w : Nat} (v : BitVec w) (k : Nat) (b : Byte) (h : 8 * k + 8 ≤ w) :
    byteAt (setByteAt v k b) k = b := by
  apply BitVec.eq_of_getLsbD_eq
  intro i hi
  rw [getLsbD_byteAt, getLsbD_setByteAt _ _ _ _ (by omega), if_pos ⟨by omega, by omega⟩,
    decide_eq_true hi, Nat.add_sub_cancel_left, Bool.true_and]

/-- "the other bytes of the field keep their values" (R224). -/
theorem byteAt_setByteAt_other {w : Nat} (v : BitVec w) (k j : Nat) (b : Byte) (h : j ≠ k) :
    byteAt (setByteAt v k b) j = byteAt v j := by
  apply BitVec.eq_of_getLsbD_eq
  intro i hi
  rw [getLsbD_byteAt, getLsbD_byteAt]
  by_cases hw : 8 * j + i < w
  · rw [getLsbD_setByteAt _ _ _ _ hw, if_neg (by omega)]
  · rw [BitVec.getLsbD_of_ge _ _ (by omega), BitVec.getLsbD_of_ge _ _ (by omega)]

/-- A field is determined by its bytes. -/
theorem eq_of_byteAt_eq {w : Nat} {u v : BitVec w} (h : ∀ k, 8 * k < w → byteAt u k = byteAt v k) :
    u = v := by
  apply BitVec.eq_of_getLsbD_eq
  intro i hi
  have := congrArg (·.getLsbD (i % 8)) (h (i / 8) (by omega))
  simp only [getLsbD_byteAt, Nat.mod_lt _ (by decide : 8 > 0), decide_true, Bool.true_and,
    Nat.div_add_mod] at this
  exact this

end Sys2Proof.Machine
end

