-- ==== Sys2Proof/Laws/Orchestrator.lean ====
section
/-! SUPPORT. What the control side can do in a tick: one inversion lemma for the producer port of `DOWNQ`
(R172 to R204), one for the consumer port of `UPQ` (R183 to R200), one for a trigger (R143 to R152). -/

namespace Sys2Proof.Machine

/-! The producer port. -/

/-- All a configuration state can do (R172). -/
theorem streamField_eq_next {f : CfgField} {s t : State} (e : streamField f s = .next t) :
    ∃ fr, fieldFrame s.cfg s.host f s.pos.toNat = some fr ∧
      ((s.downq.ready = false ∧ t = s) ∨
       (s.downq.ready = true ∧ fr.last = true ∧
         t = { s with downq := s.downq.push fr, pos := 0, ostate := .idle }) ∨
       (s.downq.ready = true ∧ fr.last = false ∧
         t = { s with downq := s.downq.push fr, pos := s.pos + 1 })) := by
  unfold streamField at e
  cases hf : fieldFrame s.cfg s.host f s.pos.toNat with
  | none => simp [hf] at e
  | some fr =>
    simp only [hf] at e
    refine ⟨fr, rfl, ?_⟩
    cases hr : s.downq.ready <;> cases hl : fr.last <;> simp [hr, hl] at e <;> subst e <;> simp

/-- All SEND_CMD can do (R177, R178). -/
theorem sendCommand_eq_next {s t : State} (e : sendCommand s = .next t) :
    ∃ fr, commandFrame s = some fr ∧
      ((s.downq.ready = false ∧ t = s) ∨
       (s.downq.ready = true ∧ s.pos.toNat < 5 ∧
         t = { s with downq := s.downq.push fr, pos := s.pos + 1 }) ∨
       (s.downq.ready = true ∧ 5 ≤ s.pos.toNat ∧ s.desc.kind = kindNone ∧
         t = { s with
           downq := s.downq.push fr
           pos := 0
           cmdf := { s.cmdf with done := true }
           dataf := { s.dataf with done := true }
           ostate := .idle }) ∨
       (s.downq.ready = true ∧ 5 ≤ s.pos.toNat ∧ s.desc.kind ≠ kindNone ∧
         t = { s with downq := s.downq.push fr, pos := 0, reqSent := false, ostate := .recvResp })) := by
  unfold sendCommand at e
  cases hf : commandFrame s with
  | none => simp [hf] at e
  | some fr =>
    simp only [hf] at e
    refine ⟨fr, rfl, ?_⟩
    cases hr : s.downq.ready with
    | false => simp [hr] at e; exact .inl ⟨rfl, e.symm⟩
    | true =>
      simp only [hr, if_true] at e
      by_cases hp : s.pos.toNat < 5
      · simp only [hp, if_true] at e; cases e; exact .inr (.inl ⟨rfl, hp, rfl⟩)
      · simp only [hp, if_false] at e
        have hp' : 5 ≤ s.pos.toNat := by omega
        by_cases hk : s.desc.kind = kindNone
        · simp only [hk, if_true] at e; cases e; exact .inr (.inr (.inl ⟨rfl, hp', hk, rfl⟩))
        · simp only [hk, if_false] at e; cases e; exact .inr (.inr (.inr ⟨rfl, hp', hk, rfl⟩))

/-- A request is pushed once, or nothing happens (R38). -/
theorem sendRequest_cases (fr : Frame) (s : State) :
    (s.reqSent = false ∧ s.downq.ready = true ∧
      sendRequest fr s = { s with downq := s.downq.push fr, reqSent := true }) ∨
    ((s.reqSent = true ∨ s.downq.ready = false) ∧ sendRequest fr s = s) := by
  unfold sendRequest
  cases s.reqSent <;> cases s.downq.ready <;> simp [State.pushDown]

/-- The end of a block: the last one ends the cycle, any other counts (R197, R204). -/
theorem endBlock_cases (s : State) :
    (s.blkcnt = s.host.blockcount ∧
      endBlock s = { s with blkcnt := 0, dataf := { s.dataf with done := true }, ostate := .idle }) ∨
    (s.blkcnt ≠ s.host.blockcount ∧ endBlock s = { s with blkcnt := s.blkcnt + 1 }) := by
  unfold endBlock
  by_cases h : s.blkcnt = s.host.blockcount <;> simp [h]

/-- SEND_DATA with a byte of the generator and `DOWNQ` ready (R198, R204). -/
theorem sendBlockByte_push {s : State} {b : Byte} {last : Bool} (hr : s.downq.ready = true)
    (hg : genOffer s = some (b, last)) :
    sendBlockByte s =
      (let u := { s with
        out := { s.out with diReady := genTakes s }
        downq := s.downq.push (xferFrame s.cfg .data .write b last)
        gen := genAdvance s.cfg s.host.blocksize b s.gen }
       if last then endBlock u else u) := by
  unfold sendBlockByte
  have ho : genOffer { s with out := { s.out with diReady := genTakes s } } = genOffer s := rfl
  simp only [ho, hg]
  simp [hr, State.pushDown]

/-- SEND_DATA with nothing to push, or nowhere to push it. -/
theorem sendBlockByte_wait {s : State} (h : s.downq.ready = false ∨ genOffer s = none) :
    sendBlockByte s = { s with out := { s.out with diReady := genTakes s } } := by
  unfold sendBlockByte
  have ho : genOffer { s with out := { s.out with diReady := genTakes s } } = genOffer s := rfl
  simp only [ho]
  cases hg : genOffer s with
  | none => rfl
  | some p => simp [h.resolve_right (by rw [hg]; simp)]

/-- SEND_DATA at the producer port: nothing is pushed, or one byte of the generator is (R198, R204). -/
theorem sendBlockByte_cases (s : State) :
    (sendBlockByte s = { s with out := { s.out with diReady := genTakes s } }) ∨
    (s.downq.ready = true ∧ ∃ b last, genOffer s = some (b, last) ∧
      sendBlockByte s =
        (let u := { s with
          out := { s.out with diReady := genTakes s }
          downq := s.downq.push (xferFrame s.cfg .data .write b last)
          gen := genAdvance s.cfg s.host.blocksize b s.gen }
         if last then endBlock u else u)) := by
  cases hr : s.downq.ready with
  | false => exact .inl (sendBlockByte_wait (.inl hr))
  | true =>
    cases hg : genOffer s with
    | none => exact .inl (sendBlockByte_wait (.inr hg))
    | some p => exact .inr ⟨rfl, p.1, p.2, rfl, sendBlockByte_push hr hg⟩

/-! The consumer port. -/

/-- All a frame at the head of `UPQ` can do: it stays where the state does not take it, or it is popped
and handled by the state's rule (R171, R183, R193, R200). -/
theorem consumeUp_eq_next {f : Frame} {s t : State} (e : consumeUp f s = .next t) :
    t = s ∨
    ((∃ g, s.upq.head? = some g) ∧
      ((s.ostate = .idle ∧ s.cfg.uqIdlePolicy = .drain ∧ t = { s with upq := s.upq.pop }) ∨
       (s.ostate = .recvResp ∧ t = takeResponse f { s with upq := s.upq.pop }) ∨
       (s.ostate = .recvData ∧ blockReady f s = true ∧
         t = takeBlockByte f { s with upq := s.upq.pop }) ∨
       (s.ostate = .sendData ∧ t = inspectAck f { s with upq := s.upq.pop }))) := by
  unfold consumeUp at e
  cases ho : s.ostate with
  | idle =>
    simp only [ho] at e
    cases hp : s.cfg.uqIdlePolicy with
    | hold => simp only [hp] at e; cases e; exact .inl rfl
    | drain =>
      simp only [hp, popUp_eq_next] at e
      exact .inr ⟨e.1, .inl ⟨rfl, rfl, by rw [← ho]; exact e.2⟩⟩
  | recvResp =>
    simp only [ho, andThen_eq_next, popUp_eq_next] at e
    obtain ⟨_, ⟨hg, rfl⟩, e⟩ := e
    cases e
    exact .inr ⟨hg, .inr (.inl ⟨rfl, by rw [← ho]⟩)⟩
  | recvData =>
    simp only [ho] at e
    cases hb : blockReady f s with
    | false => simp [hb] at e; exact .inl e.symm
    | true =>
      simp only [hb, if_true, andThen_eq_next, popUp_eq_next] at e
      obtain ⟨_, ⟨hg, rfl⟩, e⟩ := e
      cases e
      exact .inr ⟨hg, .inr (.inr (.inl ⟨rfl, rfl, by rw [← ho]⟩))⟩
  | sendData =>
    simp only [ho, andThen_eq_next, popUp_eq_next] at e
    obtain ⟨_, ⟨hg, rfl⟩, e⟩ := e
    cases e
    exact .inr ⟨hg, .inr (.inr (.inr ⟨rfl, by rw [← ho]⟩))⟩
  | cfgTimeoutData => simp only [ho] at e; cases e; exact .inl rfl
  | cfgTimeoutCmd => simp only [ho] at e; cases e; exact .inl rfl
  | cfgBlksize => simp only [ho] at e; cases e; exact .inl rfl
  | cfgVoltage => simp only [ho] at e; cases e; exact .inl rfl
  | sendCmd => simp only [ho] at e; cases e; exact .inl rfl

/-! One up frame, by the state that takes it (R171, R183 to R200). -/

theorem consumeUp_recvResp {f g : Frame} {s : State} (ho : s.ostate = .recvResp)
    (hg : s.upq.head? = some g) :
    consumeUp f s = .next (takeResponse f { s with upq := s.upq.pop }) := by
  unfold consumeUp
  split <;> first | exact absurd (ho.symm.trans ‹_›) (by decide) | skip
  rw [popUp_of_head hg]
  rfl

theorem consumeUp_recvData {f g : Frame} {s : State} (ho : s.ostate = .recvData)
    (hr : blockReady f s = true) (hg : s.upq.head? = some g) :
    consumeUp f s = .next (takeBlockByte f { s with upq := s.upq.pop }) := by
  unfold consumeUp
  split <;> first | exact absurd (ho.symm.trans ‹_›) (by decide) | skip
  rw [if_pos hr, popUp_of_head hg]
  rfl

theorem consumeUp_recvData_wait {f : Frame} {s : State} (ho : s.ostate = .recvData)
    (hr : blockReady f s = false) : consumeUp f s = .next s := by
  unfold consumeUp
  split <;> first | exact absurd (ho.symm.trans ‹_›) (by decide) | skip
  rw [if_neg (by rw [hr]; decide)]

theorem consumeUp_sendData {f g : Frame} {s : State} (ho : s.ostate = .sendData)
    (hg : s.upq.head? = some g) :
    consumeUp f s = .next (inspectAck f { s with upq := s.upq.pop }) := by
  unfold consumeUp
  split <;> first | exact absurd (ho.symm.trans ‹_›) (by decide) | skip
  rw [popUp_of_head hg]
  rfl

/-- The checker, by its phase (R295, R296). -/
theorem checkerTake_payload (b : Byte) {s : State} (h : s.chk.phase = .payload) :
    checkerTake b s =
      (let lastByte := decide (s.chk.cnt.toNat + 1 = s.host.blocksize.toNat)
       { s with
         out := { s.out with dout := some (b, lastByte) }
         chk := { s.chk with
           crc := crc16Update s.cfg.crc16Poly s.chk.crc b
           cnt := if lastByte then 0 else s.chk.cnt + 1
           phase := if lastByte then .crcHi else .payload } }) := by
  unfold checkerTake
  split <;> first | exact absurd (h.symm.trans ‹_›) (by decide) | rfl

theorem checkerTake_crcHi (b : Byte) {s : State} (h : s.chk.phase = .crcHi) :
    checkerTake b s = { s with chk := { s.chk with hi := b, phase := .crcLo } } := by
  unfold checkerTake
  split <;> first | exact absurd (h.symm.trans ‹_›) (by decide) | rfl

theorem checkerTake_crcLo (b : Byte) {s : State} (h : s.chk.phase = .crcLo) :
    checkerTake b s = { s with
      dataf := { s.dataf with crcerr := s.dataf.crcerr || s.chk.hi ++ b != s.chk.crc }
      chk := { s.chk with phase := .payload, crc := 0 } } := by
  unfold checkerTake
  split <;> first | exact absurd (h.symm.trans ‹_›) (by decide) | skip
  simp only
  split
  · simp_all
  · simp_all [raise]

/-- RECV_RESP, the three cases in the order of R183. -/
theorem takeResponse_timeout {f : Frame} (s : State) (h : f.status = Status.timeout.code) :
    takeResponse f s = raise .commandTimeout s := by
  unfold takeResponse
  rw [if_pos h]

theorem takeResponse_byte {f : Frame} (s : State) (h : f.status ≠ Status.timeout.code)
    (hl : f.last = false) :
    takeResponse f s = { s with response := s.response.extractLsb' 0 112 ++ f.data } := by
  unfold takeResponse
  rw [if_neg h, if_neg (by rw [hl]; decide)]

theorem takeResponse_last {f : Frame} (s : State) (h : f.status ≠ Status.timeout.code)
    (hl : f.last = true) :
    takeResponse f s =
      (let u := { s with
        cmdf := { s.cmdf with crcCheck := f.data.extractLsb' 1 7, crcEn := true, done := true } }
       if s.desc.dir = dirRead then { u with reqSent := false, ostate := .recvData }
       else if s.desc.dir = dirWrite then { u with ostate := .sendData }
       else { u with dataf := { s.dataf with done := true }, ostate := .idle }) := by
  unfold takeResponse
  rw [if_neg h, if_pos hl]

/-- RECV_DATA, the cases of R194 to R197. -/
theorem takeBlockByte_timeout {f : Frame} (s : State) (h : f.status = Status.timeout.code) :
    takeBlockByte f s = raise .dataTimeout s := by
  unfold takeBlockByte
  rw [if_pos h]

theorem takeBlockByte_ok {f : Frame} (s : State) (h : f.status = Status.ok.code) (hl : f.last = false) :
    takeBlockByte f s = checkerTake f.data s := by
  unfold takeBlockByte
  rw [if_neg (by rw [h]; decide), if_pos h]
  simp only
  rw [if_neg (by rw [hl]; decide)]

theorem takeBlockByte_other {f : Frame} (s : State) (h : f.status ≠ Status.timeout.code)
    (h' : f.status ≠ Status.ok.code) (hl : f.last = false) : takeBlockByte f s = s := by
  unfold takeBlockByte
  rw [if_neg h, if_neg h']
  simp only
  rw [if_neg (by rw [hl]; decide)]

theorem takeBlockByte_last {f : Frame} (s : State) (h : f.status ≠ Status.timeout.code)
    (hl : f.last = true) :
    takeBlockByte f s =
      (let u := if f.status = Status.ok.code then checkerTake f.data s else s
       if u.blkcnt = u.host.blockcount then endBlock u else { endBlock u with reqSent := false }) := by
  unfold takeBlockByte
  rw [if_neg h]
  simp only
  rw [if_pos hl]

/-! What the orchestrator's own step leaves to the host port (R20, R141). -/

/-- The host registers, the pending triggers and the read data are the same. -/
structure KeepsHostPort (s t : State) : Prop where
  host : t.host = s.host
  pending : t.pending = s.pending
  rdata : t.out.rdata = s.out.rdata

theorem KeepsHostPort.refl (s : State) : KeepsHostPort s s := ⟨rfl, rfl, rfl⟩

theorem KeepsHostPort.trans {s t u : State} (h : KeepsHostPort s t) (h' : KeepsHostPort t u) :
    KeepsHostPort s u :=
  ⟨h'.host.trans h.host, h'.pending.trans h.pending, h'.rdata.trans h.rdata⟩

theorem endBlock_keepsHostPort (s : State) : KeepsHostPort s (endBlock s) := by
  rcases endBlock_cases s with ⟨_, e⟩ | ⟨_, e⟩ <;> rw [e] <;> exact ⟨rfl, rfl, rfl⟩

theorem sendBlockByte_keepsHostPort (s : State) : KeepsHostPort s (sendBlockByte s) := by
  rcases sendBlockByte_cases s with e | ⟨_, b, last, _, e⟩ <;> rw [e]
  · exact ⟨rfl, rfl, rfl⟩
  · cases last with
    | false => exact ⟨rfl, rfl, rfl⟩
    | true =>
      obtain ⟨h1, h2, h3⟩ := endBlock_keepsHostPort { s with
        out := { s.out with diReady := genTakes s }
        downq := s.downq.push (xferFrame s.cfg .data .write b true)
        gen := genAdvance s.cfg s.host.blocksize b s.gen }
      exact ⟨h1, h2, h3⟩

theorem emit_keepsHostPort {s t : State} (e : emit s = .next t) : KeepsHostPort s t := by
  have field : ∀ {f}, streamField f s = .next t → KeepsHostPort s t := by
    intro f e
    obtain ⟨_, _, ⟨_, rfl⟩ | ⟨_, _, rfl⟩ | ⟨_, _, rfl⟩⟩ := streamField_eq_next e <;> exact ⟨rfl, rfl, rfl⟩
  have request : ∀ fr, KeepsHostPort s (sendRequest fr s) := by
    intro fr
    rcases sendRequest_cases fr s with ⟨_, _, h⟩ | ⟨_, h⟩ <;> rw [h] <;> exact ⟨rfl, rfl, rfl⟩
  unfold emit at e
  split at e
  · cases e; exact .refl s
  · exact field e
  · exact field e
  · exact field e
  · exact field e
  · obtain ⟨_, _, ⟨_, rfl⟩ | ⟨_, _, rfl⟩ | ⟨_, _, _, rfl⟩ | ⟨_, _, _, rfl⟩⟩ := sendCommand_eq_next e <;>
      exact ⟨rfl, rfl, rfl⟩
  · cases e; exact request _
  · cases e; exact request _
  · cases e; exact sendBlockByte_keepsHostPort s

theorem checkerTake_keepsHostPort (b : Byte) (s : State) : KeepsHostPort s (checkerTake b s) := by
  unfold checkerTake
  split
  · exact ⟨rfl, rfl, rfl⟩
  · exact ⟨rfl, rfl, rfl⟩
  · simp only
    split <;> exact ⟨rfl, rfl, rfl⟩

theorem takeResponse_keepsHostPort (f : Frame) (s : State) : KeepsHostPort s (takeResponse f s) := by
  unfold takeResponse
  split
  · exact ⟨rfl, rfl, rfl⟩
  · split
    · simp only
      split
      · exact ⟨rfl, rfl, rfl⟩
      · split <;> exact ⟨rfl, rfl, rfl⟩
    · exact ⟨rfl, rfl, rfl⟩

theorem takeBlockByte_keepsHostPort (f : Frame) (s : State) : KeepsHostPort s (takeBlockByte f s) := by
  unfold takeBlockByte
  split
  · exact ⟨rfl, rfl, rfl⟩
  · have h : KeepsHostPort s (if f.status = Status.ok.code then checkerTake f.data s else s) := by
      split
      · exact checkerTake_keepsHostPort _ s
      · exact .refl s
    refine h.trans ?_
    generalize (if f.status = Status.ok.code then checkerTake f.data s else s) = u
    obtain ⟨h1, h2, h3⟩ := endBlock_keepsHostPort u
    simp only
    split
    · split <;> exact ⟨h1, h2, h3⟩
    · exact .refl u

theorem inspectAck_keepsHostPort (f : Frame) (s : State) : KeepsHostPort s (inspectAck f s) := by
  unfold inspectAck
  split <;> exact ⟨rfl, rfl, rfl⟩

theorem consumeUp_keepsHostPort {f : Frame} {s t : State} (e : consumeUp f s = .next t) :
    KeepsHostPort s t := by
  have pop : KeepsHostPort s { s with upq := s.upq.pop } := ⟨rfl, rfl, rfl⟩
  rcases consumeUp_eq_next e with rfl | ⟨_, ⟨_, _, rfl⟩ | ⟨_, rfl⟩ | ⟨_, _, rfl⟩ | ⟨_, rfl⟩⟩
  · exact .refl _
  · exact pop
  · exact pop.trans (takeResponse_keepsHostPort f _)
  · exact pop.trans (takeBlockByte_keepsHostPort f _)
  · exact pop.trans (inspectAck_keepsHostPort f _)

/-! Triggers. -/

/-- All an accepted `command` write can do (R123, R143, R300). -/
theorem issueCommand_eq_next {s t : State} (e : issueCommand s = .next t) :
    cmdKind s.host.command ≠ 3 ∧ cmdDir s.host.command ≠ 3 ∧
    t = { s with
      response := 0
      cmdf := .clear
      dataf := .clear
      desc := { arg := s.host.argument, idx := cmdIdx s.host.command,
                kind := cmdKind s.host.command, dir := cmdDir s.host.command }
      gen := .cleared
      chk := .cleared
      blkcnt := 0
      pos := 0
      reqSent := false
      ostate := .sendCmd } := by
  unfold issueCommand at e
  simp only at e
  split at e
  · cases e
  · rename_i h
    split at e
    · cases e
    · cases e
      exact ⟨fun h1 => h (.inl h1), fun h1 => h (.inr h1), rfl⟩

/-- All the service of a trigger can do (R143 to R147). -/
theorem serviceTrigger_eq_next {tr : Trigger} {s t : State} (e : serviceTrigger tr s = .next t) :
    (tr = .command ∧ issueCommand s = .next t) ∨
    (∃ f : CfgField, t = { s with pos := 0, ostate := f.state }) := by
  cases tr with
  | command => exact .inl ⟨rfl, e⟩
  | cmdtimeout => cases e; exact .inr ⟨.cmdtimeout, rfl⟩
  | datatimeout => cases e; exact .inr ⟨.datatimeout, rfl⟩
  | voltage => cases e; exact .inr ⟨.voltage, rfl⟩
  | blocksize => cases e; exact .inr ⟨.blocksize, rfl⟩

/-- A serviced trigger leaves IDLE (R143 to R147). -/
theorem serviceTrigger_leaves_idle {tr : Trigger} {s t : State} (e : serviceTrigger tr s = .next t) :
    t.ostate ≠ .idle := by
  rcases serviceTrigger_eq_next e with ⟨_, h⟩ | ⟨f, rfl⟩
  · obtain ⟨_, _, rfl⟩ := issueCommand_eq_next h
    exact nofun
  · cases f <;> exact nofun

/-- All the trigger of a write can do (R152). -/
theorem hostTrigger_eq_next {tr : Trigger} {s t : State} (e : hostTrigger tr s = .next t) :
    (s.ostate = .idle ∧ serviceTrigger tr s = .next t) ∨
    (s.ostate ≠ .idle ∧ s.cfg.busyWritePolicy = .drop ∧ t = s) ∨
    (s.ostate ≠ .idle ∧ s.cfg.busyWritePolicy = .defer ∧
      t = { s with pending := remember tr s.pending }) := by
  unfold hostTrigger at e
  split at e
  · exact .inl ⟨‹_›, e⟩
  · cases hp : s.cfg.busyWritePolicy with
    | drop => simp only [hp] at e; cases e; exact .inr (.inl ⟨‹_›, rfl, rfl⟩)
    | defer => simp only [hp] at e; cases e; exact .inr (.inr ⟨‹_›, rfl, rfl⟩)

end Sys2Proof.Machine
end

