-- ==== Sys2Proof/Laws/PerInstr.lean ====
section
/-! SUPPORT. The rows of spec/opcode_table.json: for every operation the word its encoder gives, with every
operand at every value, is on the port of its row and matches the row. -/

namespace Sys2Proof.Laws.TableRow

/-- The word is a host access whose five bits are the row's. -/
def OnHost (m : BitVec 5) (p : PortWord) : Prop := ∃ a, p = .host a ∧ a.word = m

/-- The word is a down frame that matches the row. -/
def OnDown (mask m : BitVec 17) (p : PortWord) : Prop := ∃ f, p = .down f ∧ f.word &&& mask = m

/-- The word is an up frame that matches the row. -/
def OnUp (mask m : BitVec 17) (p : PortWord) : Prop := ∃ f, p = .up f ∧ f.word &&& mask = m

/-- The encoding of the operation, with the default mode encoding, matches its row (R111). -/
def Statement (i : Instr) : Prop :=
  match i with
  | .wrArgument _ => OnHost 0x10 (encode .default i)
  | .wrCommand _ => OnHost 0x11 (encode .default i)
  | .wrCmdtimeout _ => OnHost 0x13 (encode .default i)
  | .wrDatatimeout _ => OnHost 0x14 (encode .default i)
  | .wrVoltage _ => OnHost 0x15 (encode .default i)
  | .wrBlocksize _ => OnHost 0x16 (encode .default i)
  | .wrBlockcount _ => OnHost 0x17 (encode .default i)
  | .rdResponse => OnHost 0x02 (encode .default i)
  | .rdCmdevt => OnHost 0x08 (encode .default i)
  | .rdDataevt => OnHost 0x09 (encode .default i)
  | .fdCmdRd _ _ => OnDown 0x0FF00 0x00000 (encode .default i)
  | .fdDataRd _ _ => OnDown 0x0FF00 0x00100 (encode .default i)
  | .fdCmdWr _ _ => OnDown 0x0FF00 0x00200 (encode .default i)
  | .fdDataWr _ _ => OnDown 0x0FF00 0x00300 (encode .default i)
  | .fdCfgTc0 _ _ _ => OnDown 0x0FC00 0x00400 (encode .default i)
  | .fdCfgTc1 _ _ _ => OnDown 0x0FC00 0x00800 (encode .default i)
  | .fdCfgTc2 _ _ _ => OnDown 0x0FC00 0x00C00 (encode .default i)
  | .fdCfgTc3 _ _ _ => OnDown 0x0FC00 0x01000 (encode .default i)
  | .fdCfgTd0 _ _ _ => OnDown 0x0FC00 0x01400 (encode .default i)
  | .fdCfgTd1 _ _ _ => OnDown 0x0FC00 0x01800 (encode .default i)
  | .fdCfgTd2 _ _ _ => OnDown 0x0FC00 0x01C00 (encode .default i)
  | .fdCfgTd3 _ _ _ => OnDown 0x0FC00 0x02000 (encode .default i)
  | .fdCfgBs0 _ _ _ => OnDown 0x0FC00 0x02400 (encode .default i)
  | .fdCfgBs1 _ _ _ => OnDown 0x0FC00 0x02800 (encode .default i)
  | .fdCfgV _ _ _ => OnDown 0x0FC00 0x02C00 (encode .default i)
  | .fuCmdOk _ _ _ => OnUp 0x01F00 0x00000 (encode .default i)
  | .fuDataOk _ _ _ => OnUp 0x01F00 0x00100 (encode .default i)
  | .fuCmdTimeout _ _ _ => OnUp 0x01F00 0x00200 (encode .default i)
  | .fuDataTimeout _ _ _ => OnUp 0x01F00 0x00300 (encode .default i)
  | .fuDataAccepted _ _ _ => OnUp 0x01F00 0x00500 (encode .default i)
  | .fuDataCrcerr _ _ _ => OnUp 0x01F00 0x00B00 (encode .default i)
  | .fuDataWrerr _ _ _ => OnUp 0x01F00 0x00D00 (encode .default i)

/-- The masked word of a frame is made of its tag. -/
theorem word_and_tag (f : Frame) (t m : Byte) (h : f.ctrl &&& t = m) :
    f.word &&& (0#1 ++ t ++ 0#8) = 0#1 ++ m ++ 0#8 := by
  subst h
  apply BitVec.eq_of_getLsbD_eq
  intro i _
  simp only [Frame.word, BitVec.getLsbD_and, BitVec.getLsbD_append]
  by_cases h8 : i < 8
  · simp [h8]
  · by_cases h16 : i - 8 < 8
    · simp [h8, h16]
    · simp [h8, h16]

/-- The word of a host access says nothing of its value (R111). -/
theorem host_word (we : Bool) (id : BitVec 4) (v : BitVec 32) :
    (HostAccess.mk we id v).word = BitVec.ofBool we ++ id := rfl

/-- A frame whose tag matches under a mask of the tag matches the row with that mask. -/
theorem matches_tag {f : Frame} {t m : Byte} {mask w : BitVec 17} (hm : mask = 0#1 ++ t ++ 0#8)
    (h : f.ctrl &&& t = m) (hw : 0#1 ++ m ++ 0#8 = w) : f.word &&& mask = w := by
  rw [hm, word_and_tag f t m h, hw]

theorem cfg_tag (code : BitVec 6) (low : BitVec 2) : downTag code low &&& 0xFC = code ++ 0#2 := by
  revert code low; decide

theorem xfer_tag (ch : Channel) (dir : Direction) {data m : Byte} {last : Bool}
    (h : tag Config.default.modes ch dir .xfer &&& 0xFF = m) :
    (xferFrame .default ch dir data last).ctrl &&& 0xFF = m := h

theorem up_tag (res : BitVec 3) (st : BitVec 4) (ch : BitVec 1) :
    (res ++ st ++ ch : Byte) &&& 0x1F = 0#3 ++ st ++ ch := by
  revert res st ch; decide

theorem wrArgument (value : BitVec 32) : Statement (.wrArgument value) :=
  ⟨_, rfl, by rw [host_word]; decide⟩

theorem wrCommand (value : BitVec 32) : Statement (.wrCommand value) :=
  ⟨_, rfl, by rw [host_word]; decide⟩

theorem wrCmdtimeout (value : BitVec 32) : Statement (.wrCmdtimeout value) :=
  ⟨_, rfl, by rw [host_word]; decide⟩

theorem wrDatatimeout (value : BitVec 32) : Statement (.wrDatatimeout value) :=
  ⟨_, rfl, by rw [host_word]; decide⟩

theorem wrVoltage (value : BitVec 8) : Statement (.wrVoltage value) :=
  ⟨_, rfl, by rw [host_word]; decide⟩

theorem wrBlocksize (value : BitVec 16) : Statement (.wrBlocksize value) :=
  ⟨_, rfl, by rw [host_word]; decide⟩

theorem wrBlockcount (value : BitVec 16) : Statement (.wrBlockcount value) :=
  ⟨_, rfl, by rw [host_word]; decide⟩

theorem rdResponse : Statement (.rdResponse) :=
  ⟨_, rfl, by rw [host_word]; decide⟩

theorem rdCmdevt : Statement (.rdCmdevt) :=
  ⟨_, rfl, by rw [host_word]; decide⟩

theorem rdDataevt : Statement (.rdDataevt) :=
  ⟨_, rfl, by rw [host_word]; decide⟩

theorem fdCmdRd (data : Byte) (last : Bool) : Statement (.fdCmdRd data last) :=
  ⟨_, rfl, matches_tag (t := 0xFF) (m := 0x00) (by decide) (xfer_tag _ _ (by decide)) (by decide)⟩

theorem fdDataRd (data : Byte) (last : Bool) : Statement (.fdDataRd data last) :=
  ⟨_, rfl, matches_tag (t := 0xFF) (m := 0x01) (by decide) (xfer_tag _ _ (by decide)) (by decide)⟩

theorem fdCmdWr (data : Byte) (last : Bool) : Statement (.fdCmdWr data last) :=
  ⟨_, rfl, matches_tag (t := 0xFF) (m := 0x02) (by decide) (xfer_tag _ _ (by decide)) (by decide)⟩

theorem fdDataWr (data : Byte) (last : Bool) : Statement (.fdDataWr data last) :=
  ⟨_, rfl, matches_tag (t := 0xFF) (m := 0x03) (by decide) (xfer_tag _ _ (by decide)) (by decide)⟩

theorem fdCfgTc0 (low : BitVec 2) (data : Byte) (last : Bool) : Statement (.fdCfgTc0 low data last) :=
  ⟨_, rfl, matches_tag (t := 0xFC) (by decide) (cfg_tag ..) (by decide)⟩

theorem fdCfgTc1 (low : BitVec 2) (data : Byte) (last : Bool) : Statement (.fdCfgTc1 low data last) :=
  ⟨_, rfl, matches_tag (t := 0xFC) (by decide) (cfg_tag ..) (by decide)⟩

theorem fdCfgTc2 (low : BitVec 2) (data : Byte) (last : Bool) : Statement (.fdCfgTc2 low data last) :=
  ⟨_, rfl, matches_tag (t := 0xFC) (by decide) (cfg_tag ..) (by decide)⟩

theorem fdCfgTc3 (low : BitVec 2) (data : Byte) (last : Bool) : Statement (.fdCfgTc3 low data last) :=
  ⟨_, rfl, matches_tag (t := 0xFC) (by decide) (cfg_tag ..) (by decide)⟩

theorem fdCfgTd0 (low : BitVec 2) (data : Byte) (last : Bool) : Statement (.fdCfgTd0 low data last) :=
  ⟨_, rfl, matches_tag (t := 0xFC) (by decide) (cfg_tag ..) (by decide)⟩

theorem fdCfgTd1 (low : BitVec 2) (data : Byte) (last : Bool) : Statement (.fdCfgTd1 low data last) :=
  ⟨_, rfl, matches_tag (t := 0xFC) (by decide) (cfg_tag ..) (by decide)⟩

theorem fdCfgTd2 (low : BitVec 2) (data : Byte) (last : Bool) : Statement (.fdCfgTd2 low data last) :=
  ⟨_, rfl, matches_tag (t := 0xFC) (by decide) (cfg_tag ..) (by decide)⟩

theorem fdCfgTd3 (low : BitVec 2) (data : Byte) (last : Bool) : Statement (.fdCfgTd3 low data last) :=
  ⟨_, rfl, matches_tag (t := 0xFC) (by decide) (cfg_tag ..) (by decide)⟩

theorem fdCfgBs0 (low : BitVec 2) (data : Byte) (last : Bool) : Statement (.fdCfgBs0 low data last) :=
  ⟨_, rfl, matches_tag (t := 0xFC) (by decide) (cfg_tag ..) (by decide)⟩

theorem fdCfgBs1 (low : BitVec 2) (data : Byte) (last : Bool) : Statement (.fdCfgBs1 low data last) :=
  ⟨_, rfl, matches_tag (t := 0xFC) (by decide) (cfg_tag ..) (by decide)⟩

theorem fdCfgV (low : BitVec 2) (data : Byte) (last : Bool) : Statement (.fdCfgV low data last) :=
  ⟨_, rfl, matches_tag (t := 0xFC) (by decide) (cfg_tag ..) (by decide)⟩

theorem fuCmdOk (res : BitVec 3) (data : Byte) (last : Bool) : Statement (.fuCmdOk res data last) :=
  ⟨_, rfl, matches_tag (t := 0x1F) (by decide) (up_tag ..) (by decide)⟩

theorem fuDataOk (res : BitVec 3) (data : Byte) (last : Bool) : Statement (.fuDataOk res data last) :=
  ⟨_, rfl, matches_tag (t := 0x1F) (by decide) (up_tag ..) (by decide)⟩

theorem fuCmdTimeout (res : BitVec 3) (data : Byte) (last : Bool) : Statement (.fuCmdTimeout res data last) :=
  ⟨_, rfl, matches_tag (t := 0x1F) (by decide) (up_tag ..) (by decide)⟩

theorem fuDataTimeout (res : BitVec 3) (data : Byte) (last : Bool) : Statement (.fuDataTimeout res data last) :=
  ⟨_, rfl, matches_tag (t := 0x1F) (by decide) (up_tag ..) (by decide)⟩

theorem fuDataAccepted (res : BitVec 3) (data : Byte) (last : Bool) : Statement (.fuDataAccepted res data last) :=
  ⟨_, rfl, matches_tag (t := 0x1F) (by decide) (up_tag ..) (by decide)⟩

theorem fuDataCrcerr (res : BitVec 3) (data : Byte) (last : Bool) : Statement (.fuDataCrcerr res data last) :=
  ⟨_, rfl, matches_tag (t := 0x1F) (by decide) (up_tag ..) (by decide)⟩

theorem fuDataWrerr (res : BitVec 3) (data : Byte) (last : Bool) : Statement (.fuDataWrerr res data last) :=
  ⟨_, rfl, matches_tag (t := 0x1F) (by decide) (up_tag ..) (by decide)⟩

end Sys2Proof.Laws.TableRow
end

