-- ==== Sys2Proof/Laws/Tick.lean ====
section
/-! SUPPORT. The two ticks as a whole: what a step with a given event is, the parts of a control tick (R140,
R170), and one inversion lemma for the host's part and for the control tick. -/

namespace Sys2Proof.Machine

/-! A step with a given event. -/

theorem step_control (c : CtlIn) (s : State) :
    step (s.withEvent (.control c)) = controlStep (ctlStart c s) := rfl

theorem step_bus (b : BusIn) (s : State) :
    step (s.withEvent (.bus b)) = busStep (busStart b s) := rfl

theorem step_reset (s : State) :
    step (s.withEvent .reset) = .next (State.resetWith s.cfg s.env (s.time + 1)) := rfl

/-! The parts of a control tick. -/

theorem controlStep_idle {s : State} (h : s.ostate = .idle) :
    controlStep s = andThen (orchTick s) idleStep := by
  unfold controlStep
  rw [if_pos h]

theorem controlStep_busy {s : State} (h : s.ostate ≠ .idle) :
    controlStep s = andThen (hostPart s) fun sh =>
      andThen (orchTick s) fun s' => .next (s'.withHostOf sh) := by
  unfold controlStep
  rw [if_neg h]

theorem orchTick_idle {s : State} (h : s.ostate = .idle) : orchTick s = consume s := by
  unfold orchTick
  rw [h]

/-- In the two receiving states the request goes out first. -/
theorem orchTick_receiving {s : State} (h : s.ostate = .recvResp ∨ s.ostate = .recvData) :
    orchTick s = andThen (emit s) consume := by
  unfold orchTick
  rcases h with h | h <;> rw [h]

/-- In every other state the two ports touch nothing of each other. -/
theorem orchTick_sending {s : State} (h0 : s.ostate ≠ .idle) (h1 : s.ostate ≠ .recvResp)
    (h2 : s.ostate ≠ .recvData) : orchTick s = andThen (consume s) emit := by
  unfold orchTick
  cases h : s.ostate <;> first | rfl | exact absurd h h0 | exact absurd h h1 | exact absurd h h2

theorem consume_none {s : State} (h : s.upq.head? = none) : consume s = .next s := by
  rw [consume_eq, h]

theorem consume_some {s : State} {f : Frame} (h : s.upq.head? = some f) :
    consume s = consumeUp f s := by
  rw [consume_eq, h]

/-- The states that consume no up frame leave `UPQ` as it is (R172, R177). -/
theorem consume_streaming {s : State} (h0 : s.ostate ≠ .idle) (h1 : s.ostate ≠ .recvResp)
    (h2 : s.ostate ≠ .recvData) (h3 : s.ostate ≠ .sendData) : consume s = .next s := by
  rw [consume_eq]
  cases s.upq.head? with
  | none => rfl
  | some f =>
    unfold consumeUp
    cases h : s.ostate <;>
      first | rfl | exact absurd h h0 | exact absurd h h1 | exact absurd h h2 | exact absurd h h3

theorem consume_hold {s : State} (h : s.ostate = .idle) (hp : s.cfg.uqIdlePolicy = .hold) :
    consume s = .next s := by
  rw [consume_eq]
  cases s.upq.head? with
  | none => rfl
  | some f =>
    unfold consumeUp
    rw [h, hp]

theorem consumeUp_drain (f : Frame) {s : State} (h : s.ostate = .idle)
    (hp : s.cfg.uqIdlePolicy = .drain) : consumeUp f s = popUp s := by
  unfold consumeUp
  rw [h, hp]

/-- All the consumer port does in IDLE (R171, R394). -/
theorem consume_idle {s : State} (h : s.ostate = .idle) :
    consume s = .next s ∨ ((∃ f, s.upq.head? = some f) ∧ s.cfg.uqIdlePolicy = .drain ∧
      consume s = .next { s with upq := s.upq.pop }) := by
  cases hp : s.cfg.uqIdlePolicy with
  | hold => exact .inl (consume_hold h hp)
  | drain =>
    rw [consume_eq]
    cases hh : s.upq.head? with
    | none => exact .inl rfl
    | some f => exact .inr ⟨⟨f, rfl⟩, rfl, (consumeUp_drain f h hp).trans (popUp_of_head hh)⟩

theorem consume_keepsHostPort {s t : State} (e : consume s = .next t) : KeepsHostPort s t := by
  rw [consume_eq] at e
  split at e
  · cases e; exact .refl s
  · exact consumeUp_keepsHostPort e

/-- The orchestrator's own step writes nothing that the host's part writes (R141). -/
theorem orchTick_keepsHostPort {s t : State} (e : orchTick s = .next t) : KeepsHostPort s t := by
  by_cases h0 : s.ostate = .idle
  · rw [orchTick_idle h0] at e
    exact consume_keepsHostPort e
  · by_cases hr : s.ostate = .recvResp ∨ s.ostate = .recvData
    · rw [orchTick_receiving hr] at e
      obtain ⟨u, hu, e⟩ := andThen_eq_next.mp e
      exact (emit_keepsHostPort hu).trans (consume_keepsHostPort e)
    · rw [orchTick_sending h0 (fun h => hr (.inl h)) (fun h => hr (.inr h))] at e
      obtain ⟨u, hu, e⟩ := andThen_eq_next.mp e
      exact (consume_keepsHostPort hu).trans (emit_keepsHostPort e)

theorem hostPart_none {s : State} (h : s.cin.host = none) : hostPart s = .next s := by
  unfold hostPart
  rw [h]

theorem hostPart_ok {s : State} {a : HostAccess} {i : Instr} (h : s.cin.host = some a)
    (hd : decodeHost a = .ok i) : hostPart s = exec i s := by
  unfold hostPart
  simp only [h, hd]

theorem hostPart_error {s : State} {a : HostAccess} {e : HostError} (h : s.cin.host = some a)
    (hd : decodeHost a = .error e) : hostPart s = .refused (hostRefusal e) := by
  unfold hostPart
  simp only [h, hd]

/-- What a host operation writes whatever the state: a register of the host, a pending bit, the read data
lines (R141, R149). -/
def HostWrote (s t : State) : Prop :=
  ∃ h p r, t = { s with host := h, pending := p, out := { s.out with rdata := r } }

/-- All the host's part of a control tick can do: it writes its registers, and in IDLE it may trigger the
orchestrator, while outside IDLE it may leave a trigger pending (R141 to R152). -/
theorem hostPart_cases {s t : State} (e : hostPart s = .next t) :
    (HostWrote s t ∧ (s.ostate = .idle → t.pending = s.pending)) ∨
    (s.ostate = .idle ∧ ∃ u tr, HostWrote s u ∧ serviceTrigger tr u = .next t) := by
  have plain : ∀ h r, t = { s with host := h, out := { s.out with rdata := r } } →
      (HostWrote s t ∧ (s.ostate = .idle → t.pending = s.pending)) ∨
      (s.ostate = .idle ∧ ∃ u tr, HostWrote s u ∧ serviceTrigger tr u = .next t) := by
    rintro h r rfl
    exact .inl ⟨⟨h, s.pending, r, rfl⟩, fun _ => rfl⟩
  have key : ∀ (h : HostRegs) (tr : Trigger) (u : State), u = { s with host := h } →
      hostTrigger tr u = .next t →
      (HostWrote s t ∧ (s.ostate = .idle → t.pending = s.pending)) ∨
      (s.ostate = .idle ∧ ∃ u tr, HostWrote s u ∧ serviceTrigger tr u = .next t) := by
    rintro h tr u rfl e
    rcases hostTrigger_eq_next e with ⟨ho, e⟩ | ⟨_, _, rfl⟩ | ⟨ho, _, rfl⟩
    · exact .inr ⟨ho, _, tr, ⟨h, s.pending, s.out.rdata, rfl⟩, e⟩
    · exact plain h s.out.rdata rfl
    · exact .inl ⟨⟨h, _, s.out.rdata, rfl⟩, fun hi => absurd hi ho⟩
  unfold hostPart at e
  cases hc : s.cin.host with
  | none => simp only [hc] at e; cases e; exact plain s.host s.out.rdata rfl
  | some a =>
    cases hd : decodeHost a with
    | error x => simp only [hc, hd] at e; cases e
    | ok i =>
      simp only [hc, hd] at e
      unfold decodeHost at hd
      split at hd
      · cases hd; cases e; exact plain _ s.out.rdata rfl
      · cases hd; exact key _ _ _ rfl e
      · cases hd; exact key _ _ _ rfl e
      · cases hd; exact key _ _ _ rfl e
      · cases hd; exact key _ _ _ rfl e
      · cases hd; exact key _ _ _ rfl e
      · cases hd; cases e; exact plain _ s.out.rdata rfl
      · cases hd; cases e; exact plain s.host _ rfl
      · cases hd; cases e; exact plain s.host _ rfl
      · cases hd; cases e; exact plain s.host _ rfl
      · split at hd <;> cases hd

theorem HostWrote.refl (s : State) : HostWrote s s := ⟨s.host, s.pending, s.out.rdata, rfl⟩

/-- All the service of a pending trigger can do (D18). -/
theorem servicePending_cases {s t : State} (e : servicePending s = .next t) :
    t = s ∨ ∃ tr rest, s.pending = tr :: rest ∧ serviceTrigger tr { s with pending := rest } = .next t := by
  unfold servicePending at e
  cases hp : s.pending with
  | nil => simp only [hp] at e; cases e; exact .inl rfl
  | cons tr rest => simp only [hp] at e; exact .inr ⟨tr, rest, rfl, e⟩

/-- A host operation in IDLE that triggers nothing, beside the oldest pending trigger, if any (R12, R140). -/
theorem idleStep_plain {s sh : State} (e : hostPart s = .next sh) (ho : sh.ostate = .idle) :
    idleStep s = andThen (servicePending s) fun s' => .next (s'.withHostWrites sh) := by
  unfold idleStep
  rw [e, andThen_next, if_pos ho]

/-- With nothing pending a tick in IDLE is the host's part (R140, R152). -/
theorem idleStep_noPending {s : State} (hp : s.pending = []) (ho : s.ostate = .idle) :
    idleStep s = hostPart s := by
  have hs : servicePending s = .next s := by unfold servicePending; rw [hp]
  cases e : hostPart s with
  | fault r => unfold idleStep; rw [e]; rfl
  | refused r => unfold idleStep; rw [e]; rfl
  | next sh =>
    rcases hostPart_cases e with ⟨⟨h, p, r, rfl⟩, hk⟩ | ⟨_, u, tr, _, ht⟩
    · obtain rfl : p = s.pending := hk ho
      rw [idleStep_plain e ho, hs]
      rfl
    · unfold idleStep
      rw [e, andThen_next, if_neg (serviceTrigger_leaves_idle ht)]

/-- All a tick in IDLE can do after the consumer port: the host's registers and read data are written, and
one trigger may be serviced. -/
theorem idleStep_cases {s t : State} (e : idleStep s = .next t) :
    HostWrote s t ∨ ∃ u v tr, HostWrote s u ∧ serviceTrigger tr u = .next v ∧ HostWrote v t := by
  unfold idleStep at e
  obtain ⟨sh, hsh, e⟩ := andThen_eq_next.mp e
  split at e
  · obtain ⟨v, hv, e⟩ := andThen_eq_next.mp e
    cases e
    rcases servicePending_cases hv with rfl | ⟨tr, rest, _, hv⟩
    · exact .inl ⟨sh.host, _, sh.out.rdata, rfl⟩
    · exact .inr ⟨_, v, tr, ⟨s.host, rest, s.out.rdata, rfl⟩, hv, sh.host, _, sh.out.rdata, rfl⟩
  · cases e
    rcases hostPart_cases hsh with ⟨h, _⟩ | ⟨_, u, tr, hu, ht⟩
    · exact .inl h
    · exact .inr ⟨u, t, tr, hu, ht, .refl t⟩

/-- A control tick outside IDLE without a host access is the orchestrator's own step. -/
theorem controlStep_noHost {s : State} (h : s.cin.host = none) (ho : s.ostate ≠ .idle) :
    controlStep s = orchTick s := by
  rw [controlStep_busy ho, hostPart_none h, andThen_next]
  cases e : orchTick s with
  | fault r => rfl
  | refused r => rfl
  | next t =>
    obtain ⟨h1, h2, h3⟩ := orchTick_keepsHostPort e
    simp only [andThen_next, State.withHostOf, State.withHostWrites, ← h1, ← h2, ← h3]

/-- All a control tick can do. In IDLE: the consumer port, then the host's part with the triggers. Elsewhere:
the orchestrator's step, with what the host wrote. -/
theorem controlStep_cases {s t : State} (e : controlStep s = .next t) :
    (s.ostate = .idle ∧ ∃ u,
      (u = s ∨ ((∃ f, s.upq.head? = some f) ∧ u = { s with upq := s.upq.pop })) ∧ idleStep u = .next t) ∨
    (s.ostate ≠ .idle ∧ ∃ u, orchTick s = .next u ∧ HostWrote u t) := by
  by_cases ho : s.ostate = .idle
  · rw [controlStep_idle ho, orchTick_idle ho] at e
    rcases consume_idle ho with hc | ⟨hf, _, hc⟩ <;> rw [hc, andThen_next] at e
    · exact .inl ⟨ho, s, .inl rfl, e⟩
    · exact .inl ⟨ho, _, .inr ⟨hf, rfl⟩, e⟩
  · rw [controlStep_busy ho] at e
    obtain ⟨sh, _, e⟩ := andThen_eq_next.mp e
    obtain ⟨u, hu, e⟩ := andThen_eq_next.mp e
    cases e
    exact .inr ⟨ho, u, hu, sh.host, sh.pending, sh.out.rdata, rfl⟩

end Sys2Proof.Machine
end

