-- ==== Sys2Proof/Tests/Slice0.lean ====
section
/-! SUPPORT. Tests: ill-formed terms that the checks refuse, words written out from the encodings of the
spec, vectors of 95_test_vectors.md of one step each, and for every statement with hypotheses a state and
operands that meet them. -/

namespace Sys2Proof.Tests

open Sys2Proof Sys2Proof.Machine

/-! ### Small states -/

/-- The state after reset, with the orchestrator in `o`. -/
def inState (o : OState) : State := { State.reset with ostate := o }

/-- A queue that holds one frame, seen by its consumer. -/
def one (f : Frame) : Queue := { items := [f], vis := 1, cred := 1 }

/-- A queue that holds two frames, both seen. -/
def two (f g : Frame) : Queue := { items := [f, g], vis := 2, cred := 0 }

/-- A down or up frame `D{data, ctrl, last}`, `U{data, ctrl, last}` (R91). -/
def frame (data ctrl : Byte) (last : Bool) : Frame := { data := data, ctrl := ctrl, last := last }

/-- A control tick without a host access, and the data-out stream ready. -/
def quiet : CtlIn := { host := none, di := none, doReady := true }

/-- A control tick with a host access. -/
def access (we : Bool) (id : BitVec 4) (value : BitVec 32) : CtlIn :=
  { host := some { we := we, id := id, value := value }, di := none, doReady := true }

/-- A bus tick with the command line as given. -/
def line (b : Bool) : BusIn := { cmdI := b, dp := .wait, dpClkEn := false, dpDat := none }

/-- A bus tick with a choice of DATAPATH. -/
def choice (a : DpAct) : BusIn := { cmdI := true, dp := a, dpClkEn := true, dpDat := none }

/-- What a step leaves in one part of the state. -/
def after {α : Type} (o : Result State) (f : State → α) : Option α :=
  match o with
  | .next s => some (f s)
  | .fault _ => none
  | .refused _ => none

/-- The state after reset with the framer's machines in given states and a frame at the head of `DOWNQ`. -/
def busState (w : WState) (r : RState) (f : Frame) : State :=
  { State.reset with
    writer := { st := w, initDone := true, cnt := 0, bit := 0 }
    reader := { Reader.atReset with st := r }
    downq := one f }

/-! ### Ill-formed terms -/

theorem test_reserved_kind_ill_formed : (Instr.wrCommand 0x0003).wellFormed = false := by decide
theorem test_reserved_direction_ill_formed : (Instr.wrCommand 0x0060).wellFormed = false := by decide
theorem test_zero_blocksize_ill_formed : (Instr.wrBlocksize 0).wellFormed = false := by decide
theorem test_up_reserved_bits_ill_formed :
    [Instr.fuCmdOk 1 0 false, .fuDataOk 1 0 false, .fuCmdTimeout 2 0 true, .fuDataTimeout 2 0 true,
     .fuDataAccepted 4 0 false, .fuDataCrcerr 4 0 false, .fuDataWrerr 7 0 false].map
      Instr.wellFormed = List.replicate 7 false := by decide
theorem test_well_formed_terms :
    [Instr.wrCommand 0x1941, .wrBlocksize 65535, .fdCfgTc0 1 0x11 true, .fuDataWrerr 0 0 false].map
      Instr.wellFormed = List.replicate 4 true := by decide

/-- Two modes with one value (D3). -/
theorem test_mode_clash_ill_formed :
    { Config.default with modes := { ModeEncoding.listOrder with volt := 10 } }.wellFormed = false := by
  decide
theorem test_check_width_ill_formed :
    { Config.default with crc7CheckWidth := 121 }.wellFormed = false := by decide
theorem test_bias_ill_formed : { Config.default with readlenBias := 7 }.wellFormed = false := by decide
theorem test_default_config_well_formed : Config.default.wellFormed = true := by decide

/-! ### Words written out from the encodings -/

/-- R111: `{we, id[3:0]}` of every HOST row; the value is truncated to the register (R141). -/
theorem test_decode_host_rows :
    [decodeHost ⟨true, 0b0000, 0xDEADBEEF⟩, decodeHost ⟨true, 0b0001, 0x1941⟩,
     decodeHost ⟨true, 0b0011, 100⟩, decodeHost ⟨true, 0b0100, 1000⟩, decodeHost ⟨true, 0b0101, 0x1FE⟩,
     decodeHost ⟨true, 0b0110, 0x10200⟩, decodeHost ⟨true, 0b0111, 2⟩, decodeHost ⟨false, 0b0010, 7⟩,
     decodeHost ⟨false, 0b1000, 0⟩, decodeHost ⟨false, 0b1001, 0⟩].map Except.toOption =
    [some (.wrArgument 0xDEADBEEF), some (.wrCommand 0x1941), some (.wrCmdtimeout 100),
     some (.wrDatatimeout 1000), some (.wrVoltage 0xFE), some (.wrBlocksize 0x200),
     some (.wrBlockcount 2), some .rdResponse, some .rdCmdevt, some .rdDataevt] := by decide

/-- R111, R91: `{last, mode[5:0], dir, ch, data}` of every FD row. -/
theorem test_decode_down_rows :
    [0b0_000000_00_00000101#17, 0b1_000000_01_00000000#17, 0b1_000000_10_10010101#17,
     0b0_000000_11_10100001#17, 0b0_000001_10_01100100#17, 0b0_000010_10_00000011#17,
     0b0_000011_10_00000001#17, 0b1_000100_10_10000000#17, 0b0_000101_10_11101000#17,
     0b0_000110_00_00000011#17, 0b0_000111_01_00000000#17, 0b1_001000_11_00000000#17,
     0b0_001001_10_00000000#17, 0b1_001010_10_00000010#17, 0b1_001011_10_00000001#17].map
      (fun w => (decodeDown .default (.ofWord w)).toOption) =
    [some (.fdCmdRd 0x05 false), some (.fdDataRd 0x00 true), some (.fdCmdWr 0x95 true),
     some (.fdDataWr 0xA1 false), some (.fdCfgTc0 2 0x64 false), some (.fdCfgTc1 2 0x03 false),
     some (.fdCfgTc2 2 0x01 false), some (.fdCfgTc3 2 0x80 true), some (.fdCfgTd0 2 0xE8 false),
     some (.fdCfgTd1 0 0x03 false), some (.fdCfgTd2 1 0x00 false), some (.fdCfgTd3 3 0x00 true),
     some (.fdCfgBs0 2 0x00 false), some (.fdCfgBs1 2 0x02 true), some (.fdCfgV 2 0x01 true)] := by
  decide

/-- R111, R96: `{last, 000, status[3:0], ch, data}` of every FU row. -/
theorem test_decode_up_rows :
    [0b1_000_0000_0_00010011#17, 0b0_000_0000_1_11011110#17, 0b1_000_0001_0_00000000#17,
     0b1_000_0001_1_00000000#17, 0b0_000_0010_1_00000000#17, 0b0_000_0101_1_00000000#17,
     0b0_101_0110_1_00000000#17].map (fun w => (decodeUp (.ofWord w)).toOption) =
    [some (.fuCmdOk 0 0x13 true), some (.fuDataOk 0 0xDE false), some (.fuCmdTimeout 0 0x00 true),
     some (.fuDataTimeout 0 0x00 true), some (.fuDataAccepted 0 0x00 false),
     some (.fuDataCrcerr 0 0x00 false), some (.fuDataWrerr 5 0x00 false)] := by decide

/-- Refused by name: a reserved mode (R121), a reserved status (R122), a read of `argument` (R153), an id
that names no register. -/
theorem test_decode_refuses_by_name :
    decodeDown .default (.ofWord 0b0_001100_00_00010001) = .error (.reservedMode 12) ∧
    decodeUp (.ofWord 0b0_000_0111_1_01110111) = .error (.noUpOperation 7 1) ∧
    decodeHost ⟨false, 0, 0⟩ = .error (.notAnOperation false 0) ∧
    decodeHost ⟨true, 10, 0⟩ = .error (.noSuchRegister 10) := ⟨rfl, rfl, rfl, rfl⟩

/-- Bare words of the table, and a step from reset that runs each. -/
theorem test_table_words_decode_and_run :
    decodeTableWord 8 0x10 = some (.wrArgument 0) ∧
    decodeTableWord 24 0x02C00 = some (.fdCfgV 0 0 false) ∧
    decodeTableWord 24 0x00B00 = some (.fuDataCrcerr 0 0 false) ∧
    after (step (State.reset.withFetchWord 8 0x16)) (·.ostate) = some .cfgBlksize ∧
    after (step (State.reset.withFetchWord 24 0x02C01)) (·.fcfg.voltage) = some true ∧
    after (step (State.reset.withFetchWord 24 0x00B00)) (·.dataf.werr) = some true := by decide

/-! ### Vectors of 95_test_vectors.md -/

/-- V-H-1. -/
theorem test_wr_argument :
    after (exec (.wrArgument 0xDEADBEEF) State.reset) (fun s => (s.host.argument, s.ostate)) =
      some (0xDEADBEEF, .idle) := by decide

/-- V-H-4, V-H-5: every flag cleared; ignored bits of the value select nothing. -/
theorem test_wr_command :
    [0x0801#32, 0xFFFFC89D#32].map (fun v => after (exec (.wrCommand v) { State.reset with
        host := { HostRegs.zero with argument := 0x1AA }
        response := 0x123
        cmdf := { done := true, timeout := false, crcEn := true, crcCheck := 1 }
        dataf := { done := true, timeout := false, werr := true, crcerr := true } })
      (fun s => (s.desc, s.response, cmdevt s, dataevt s, s.ostate))) =
    List.replicate 2 (some ({ arg := 0x1AA, idx := 8, kind := 1, dir := 0 }, 0, 0, 0, .sendCmd)) := by
  decide

/-- V-H-6, V-H-17. -/
theorem test_wr_command_refused :
    exec (.wrCommand 0x0003) State.reset = .refused .reservedCommandField ∧
    exec (.wrCommand 0x0060) State.reset = .refused .reservedCommandField ∧
    exec (.wrCommand 0x1121) State.reset = .refused .zeroBlocksizeTransfer := ⟨rfl, rfl, rfl⟩

/-- V-H-7: a trigger outside IDLE is lost. -/
theorem test_busy_writes :
    after (exec (.wrBlocksize 512) (inState .recvResp)) (fun s => (s.host.blocksize, s.ostate)) =
      some (512, .recvResp) := by decide

/-- V-H-8: the first frame of a `cmdtimeout` write. -/
theorem test_wr_cmdtimeout :
    after (andThen (exec (.wrCmdtimeout 0x12345678) State.reset) emit)
      (fun s => (s.downq.items, s.pos)) = some ([frame 0x78 0x06 false], 1) := by decide

/-- V-H-9. -/
theorem test_wr_datatimeout :
    after (andThen (exec (.wrDatatimeout 1000) State.reset) emit)
      (fun s => (s.downq.items, s.pos)) = some ([frame 0xE8 0x16 false], 1) := by decide

/-- V-H-12. -/
theorem test_wr_voltage :
    after (andThen (exec (.wrVoltage 0xFE) State.reset) emit)
      (fun s => (s.downq.items, s.ostate)) = some ([frame 0xFE 0x2E true], .idle) := by decide

/-- V-H-10. -/
theorem test_wr_blocksize :
    after (andThen (andThen (exec (.wrBlocksize 512) State.reset) emit) emit)
      (fun s => (s.downq.items, s.ostate)) =
      some ([frame 0x00 0x26 false, frame 0x02 0x2A true], .idle) := by decide

/-- V-H-13. -/
theorem test_wr_blockcount :
    after (exec (.wrBlockcount 2) State.reset) (fun s => (s.host.blockcount, s.downq.items, s.ostate)) =
      some (2, [], .idle) := by decide

set_option maxRecDepth 20000 in
/-- V-H-15, and the response of R149's example. -/
theorem test_reads :
    let s := { State.reset with
      response := 0x08000001AB
      cmdf := { done := true, timeout := false, crcEn := true, crcCheck := 0x09 }
      dataf := { done := true, timeout := false, werr := false, crcerr := true } }
    after (exec .rdCmdevt s) (·.out.rdata) = some (some 0x9) ∧
    after (exec .rdDataevt s) (·.out.rdata) = some (some 0x9) ∧
    after (exec .rdResponse s) (·.out.rdata) = some (some 0x08000001AB) := by decide

/-- V-F-1 to V-F-4. -/
theorem test_fd_cfg_tc :
    let s := { State.reset with
      fcfg := { FramerRegs.zero with cmdtimeout := 0xAABBCCDD }, downq := one (frame 0 0 false) }
    [Instr.fdCfgTc0 2 0x11 false, .fdCfgTc1 2 0x11 false, .fdCfgTc2 2 0x11 false,
     .fdCfgTc3 2 0x11 true].map (fun i => after (exec i s) (·.fcfg.cmdtimeout)) =
    [some 0xAABBCC11, some 0xAABB11DD, some 0xAA11CCDD, some 0x11BBCCDD] := by decide

/-- V-F-5, V-F-6. -/
theorem test_fd_cfg_td :
    let s := fun v => { State.reset with
      fcfg := { FramerRegs.zero with datatimeout := v }, downq := one (frame 0 0 false) }
    after (exec (.fdCfgTd0 2 0xE8 false) (s 0)) (·.fcfg.datatimeout) = some 0xE8 ∧
    after (exec (.fdCfgTd1 2 0x03 false) (s 0xE8)) (·.fcfg.datatimeout) = some 0x3E8 ∧
    after (exec (.fdCfgTd2 2 0x00 false) (s 0xFFFFFFFF)) (·.fcfg.datatimeout) = some 0xFF00FFFF ∧
    after (exec (.fdCfgTd3 2 0x00 true) (s 0xFF00FFFF)) (·.fcfg.datatimeout) = some 0x0000FFFF := by
  decide

/-- V-F-7, V-F-8. -/
theorem test_fd_cfg_bs_v :
    let s := { State.reset with
      fcfg := { FramerRegs.zero with blocksize := 4 }, downq := one (frame 0 0 false) }
    after (exec (.fdCfgBs0 2 0x00 false) s) (·.fcfg.blocksize) = some 0 ∧
    after (exec (.fdCfgBs1 2 0x02 true) s) (·.fcfg.blocksize) = some 0x0204 ∧
    after (exec (.fdCfgV 2 0xFF true) s) (·.fcfg.voltage) = some true := by decide

/-- V-F-9, V-F-10: the low bits of the tag take no part; a reserved mode is popped and writes nothing. -/
theorem test_latch_by_mode :
    after (step ({ State.reset with
      fcfg := { FramerRegs.zero with cmdtimeout := 5 }, downq := one (frame 0x11 0x05 true) }.withEvent
      (.bus (line true)))) (fun s => (s.fcfg.cmdtimeout, s.downq.items)) = some (0x11, []) ∧
    after (step ({ State.reset with downq := one (frame 0x11 0x30 false) }.withEvent (.bus (line true))))
      (fun s => (s.fcfg, s.downq.items)) = some (FramerRegs.zero, []) := by decide

/-- V-W-3: bit 7 first; the last bit pops, and there are no trailing clocks. -/
theorem test_fd_cmd_wr :
    let s := fun b : BitVec 3 => { busState .cmdWrite .idle (frame 0xA5 0x02 false) with
      writer := { st := .cmdWrite, initDone := true, cnt := 0, bit := b } }
    [0#3, 1, 2, 3, 4, 5, 6, 7].map (fun b => after (exec (.fdCmdWr 0xA5 false) (s b)) (·.pads.cmd)) =
      [true, false, true, false, false, true, false, true].map (fun b => some (some b)) ∧
    after (exec (.fdCmdWr 0xA5 false) (s 7)) (fun s => (s.downq.items, s.writer.st)) =
      some ([], .idle) := by decide

/-- R239: the first tick of the first command after reset is the dispatch into INIT. -/
theorem test_fd_cmd_wr_first :
    after (exec (.fdCmdWr 0x40 false) State.reset) (fun s => (s.writer.st, s.pads.clkEn)) =
      some (.init, false) := by decide

/-- V-T-3: with `f_cmdtimeout = 0` the first tick of the wait gives up. -/
theorem test_fd_cmd_rd_timeout :
    after (exec (.fdCmdRd 0x05 true) (busState .idle .cmdReadstart (frame 0x05 0x00 true)))
      (fun s => (s.reader.st, s.pads.clkEn, s.pads.cmdOe)) = some (.timeout, true, false) := by decide

/-- R246: the eighth bit of the byte `13`, the last of the request. -/
theorem test_fd_cmd_rd_byte :
    after (exec (.fdCmdRd 0x05 true) { busState .idle .cmdRead (frame 0x05 0x00 true) with
      reader := { st := .cmdRead, toread := 5, last := true, cread := 5, timeout := 0, cnt := 0 }
      sampler := { st := .read, shift := 0b00001001, cnt := 7 } })
      (fun s => (s.upq.items, s.downq.items, s.reader.st)) =
    some ([frame 0x13 0x00 true], [], .cmdClk8) := by decide

/-- R262: the sixth frame of a block of four bytes is the last. -/
theorem test_fd_data_rd :
    after (exec (.fdDataRd 0 true) { busState .idle .idle (frame 0 0x01 true) with
      fcfg := { FramerRegs.zero with blocksize := 4 }
      datapath := { sent := 5, acked := false }
      bin := choice (.deliver 0x57) })
      (fun s => (s.upq.items, s.downq.items)) = some ([frame 0x57 0x01 true], []) := by decide

/-- R263: an acknowledgement carries payload 00 and `last = 0`. -/
theorem test_fd_data_wr :
    after (exec (.fdDataWr 0xD6 true) { busState .idle .idle (frame 0xD6 0x03 true) with
      bin := choice (.ack 5 true) })
      (fun s => (s.upq.items, s.downq.items)) = some ([frame 0x00 0x0B false], []) := by decide

/-- V-O-8. -/
theorem test_fu_cmd_ok :
    let s := { inState .recvResp with response := 0x08000001, upq := one (frame 0xAA 0 false) }
    after (exec (.fuCmdOk 0 0xAA false) s) (·.response) = some 0x08000001AA ∧
    after (exec (.fuCmdOk 0 0x13 true) s) (fun s => (s.cmdf.crcCheck, s.dataf.done, s.ostate)) =
      some (0x09, true, .idle) := by decide

/-- V-O-9. -/
theorem test_fu_cmd_timeout :
    after (exec (.fuCmdTimeout 0 0 true) { inState .recvResp with upq := one (frame 0 2 true) })
      (fun s => (cmdevt s, dataevt s, s.ostate)) = some (0x4, 0x1, .idle) := by decide

/-- V-O-10, V-O-13. -/
theorem test_fu_data_timeout :
    after (exec (.fuDataTimeout 0 0x55 false) { inState .recvResp with upq := one (frame 0x55 3 false) })
      (fun s => (cmdevt s, dataevt s, s.ostate)) = some (0x4, 0x1, .idle) ∧
    after (exec (.fuDataTimeout 0 0 true) { inState .recvData with
      blkcnt := 1, host := { HostRegs.zero with blockcount := 2 }, upq := one (frame 0 3 true) })
      (fun s => (dataevt s, s.blkcnt, s.ostate)) = some (0x4, 0, .idle) := by decide

/-- V-O-16 with the trailer of V-CRC16-3: the second trailer byte ends block 0, and the next is asked for. -/
theorem test_fu_data_ok :
    after (exec (.fuDataOk 0 0xF0 true) { inState .recvData with
      reqSent := true, host := { HostRegs.zero with blockcount := 2 }, upq := one (frame 0xF0 1 true)
      chk := { crc := 0x1EF0, cnt := 0, phase := .crcLo, hi := 0x1E } })
      (fun s => (s.blkcnt, s.reqSent, s.dataf.crcerr, s.ostate)) = some (1, false, false, .recvData) := by
  decide

/-- V-O-14, V-O-17. -/
theorem test_fu_data_accepted :
    after (exec (.fuDataAccepted 0 0 false) { inState .recvData with upq := one (frame 0 5 false) })
      (fun s => (s.chk, s.out.dout, s.upq.items)) = some (.cleared, none, []) ∧
    after (exec (.fuDataAccepted 0 0 false) { inState .sendData with upq := one (frame 0 5 false) })
      dataevt = some 0 := by decide

/-- V-O-18. -/
theorem test_fu_data_errors :
    [Instr.fuDataCrcerr 0 0 false, .fuDataWrerr 0 0 false].map (fun i =>
      after (exec i { inState .sendData with upq := one (frame 0 0x0B false) }) dataevt) =
    [some 0x2, some 0x2] := by decide

/-- V-O-11, V-O-21: a reserved status is treated like OK; in IDLE a frame stays. -/
theorem test_up_frames_by_state :
    after (step ({ inState .recvResp with upq := one (frame 0x77 0x0F false) }.withEvent
      (.control quiet))) (·.response) = some 0x77 ∧
    after (step ({ State.reset with upq := one (frame 0 5 false) }.withEvent (.control quiet)))
      (·.upq.items) = some [frame 0 5 false] := by decide

set_option maxRecDepth 20000 in
/-- V-O-1, V-O-2: the direction is not looked at when the kind is NONE. -/
theorem test_kind_none :
    after (emit { inState .sendCmd with pos := 5, desc := { arg := 0, idx := 0, kind := 0, dir := 1 } })
      (fun s => (s.downq.items, cmdevt s, dataevt s, s.ostate)) =
    some ([frame 0x95 0x02 true], 0x1, 0x1, .idle) := by decide

/-- V-O-20: a push that ends the block and a bad acknowledgement in one tick. -/
theorem test_push_and_pop :
    after (step ({ inState .sendData with
      gen := { crc := 0xA9D6, cnt := 0, phase := .crcLo }, upq := one (frame 0 0x0B false) }.withEvent
      (.control quiet))) (fun s => (dataevt s, s.blkcnt, s.ostate)) = some (0x3, 0, .idle) := by decide

set_option maxRecDepth 20000 in
/-- V-CRC7-21, V-CRC7-8 and V-CRC16-5. -/
theorem test_crc_values :
    crc7Resp .default 0x3F80FF8000 = 0x78 ∧ crc7Cmd .default 25 0x10 = 0x18 ∧
    crc16 0x1021 [1, 2, 3, 4] = 0x0D03 := by decide

/-- V-Q-1, V-Q-2, V-Q-4. -/
theorem test_queue_lag :
    let a := frame 1 0 false
    let b := frame 2 0 false
    let q := (Queue.empty.push a)
    let r := q.syncVis.push b
    q.valid = false ∧ q.syncVis.head? = some a ∧ r.ready = false ∧ r.syncVis.vis = 2 ∧
    r.syncVis.pop.items = [b] ∧ r.syncVis.pop.ready = false ∧ r.syncVis.pop.syncCred.cred = 1 := by
  decide

/-! ### The hypotheses of the statements are met

One theorem for each statement that has hypotheses, named after it: concrete states and operands that meet
them together, clause by clause, at the ends of the ranges. -/

/-- A read transfer of blocks of one byte; kind NONE with a direction while `blocksize = 0`; a busy write. -/
theorem witness_CommandWriteIssuesFromIdle :
    let ok := fun (s : State) (v : BitVec 32) => s.ostate = .idle ∧
      v.extractLsb' 0 2 ≠ 3 ∧ v.extractLsb' 5 2 ≠ 3 ∧
      (v.extractLsb' 0 2 ≠ 0 → v.extractLsb' 5 2 ≠ 0 → s.host.blocksize ≠ 0)
    ok { State.reset with host := { HostRegs.zero with blocksize := 1 } } 0x1121 ∧
    ok State.reset 0x0020 ∧ ok State.reset 0x0801 ∧
    ((inState .recvResp).ostate ≠ .idle ∧ (inState .recvResp).cfg.busyWritePolicy = .drop) := by decide

theorem witness_ReservedCommandWritesRefused :
    State.reset.ostate = .idle ∧
    (0x0003#32).extractLsb' 0 2 = 3 ∧ (0x0060#32).extractLsb' 5 2 = 3 ∧
    (0x1121#32).extractLsb' 0 2 ≠ 3 ∧ (0x1121#32).extractLsb' 5 2 ≠ 3 ∧
    (0x1121#32).extractLsb' 0 2 ≠ 0 ∧ (0x1121#32).extractLsb' 5 2 ≠ 0 ∧
    State.reset.host.blocksize = 0 := by decide

theorem witness_ConfigWritesStreamFromIdle :
    State.reset.ostate = .idle ∧
    ((inState .cfgVoltage).ostate ≠ .idle ∧ (inState .cfgVoltage).cfg.busyWritePolicy = .drop) := by decide

theorem witness_NonOperationsRefused :
    ((access false 0 0).host = some ⟨false, 0, 0⟩ ∧ (0#4).toNat ∈ [0, 1, 3, 4, 5, 6, 7]) ∧
    ((access false 7 0).host = some ⟨false, 7, 0⟩ ∧ (7#4).toNat ∈ [0, 1, 3, 4, 5, 6, 7]) ∧
    ((access true 2 1).host = some ⟨true, 2, 1⟩ ∧ (2#4).toNat ∈ [2, 8, 9]) ∧
    ((access true 9 1).host = some ⟨true, 9, 1⟩ ∧ (9#4).toNat ∈ [2, 8, 9]) := by decide

/-- A lost `command` trigger that `BUSY_WRITE_POLICY = defer` remembered, in IDLE again. -/
def deferring : State :=
  { State.reset with
    cfg := { Config.default with busyWritePolicy := .defer }
    host := { HostRegs.zero with argument := 0x1AA, command := 0x0801 }
    pending := [.command] }

/-- An access that triggers, one that does not beside a deferred trigger, and one outside IDLE. -/
theorem witness_StepRunsHostOperation :
    decodeHost ⟨true, 1, 0x0801⟩ = .ok (.wrCommand 0x0801) ∧
    (access true 1 0x0801).host = some ⟨true, 1, 0x0801⟩ ∧
    (State.reset.ostate = .idle ∧ State.reset.cfg.uqIdlePolicy = .hold ∧ State.reset.pending = []) ∧
    (deferring.ostate = .idle ∧ deferring.cfg.uqIdlePolicy = .hold ∧ deferring.pending = .command :: [] ∧
      decodeHost ⟨true, 0, 7⟩ = .ok (.wrArgument 7) ∧
      after (exec (.wrArgument 7) (ctlStart (access true 0 7) deferring)) (·.ostate) = some .idle ∧
      after (exec (.wrCommand 0x0801) (ctlStart (access true 1 0x0801) deferring)) (·.ostate) =
        some .sendCmd) ∧
    (inState .sendData).ostate ≠ .idle :=
  ⟨rfl, rfl, ⟨rfl, rfl, rfl⟩, ⟨rfl, rfl, rfl, rfl, rfl, rfl⟩, by decide⟩

/-- R12, R140: a deferred command serviced beside a write of `argument` latches the argument at the start of
the tick, and the write lands. -/
theorem test_deferred_command_reads_start_of_tick :
    after (step (deferring.withEvent (.control (access true 0 7))))
      (fun s => (s.desc.arg, s.host.argument, s.pending, s.ostate)) = some (0x1AA, 7, [], .sendCmd) := by
  decide

theorem witness_StepRunsDownOperation :
    let f := frame 0x95 0x02 true
    let s := { State.reset with downq := one f }
    s.downq.head? = some f ∧ decodeDown s.cfg f = .ok (.fdCmdWr 0x95 true) := ⟨rfl, rfl⟩

theorem witness_StepRunsUpOperation :
    let f := frame 0x13 0x00 true
    let at_ := fun o => { inState o with upq := one f }
    quiet.host = none ∧ decodeUp f = .ok (.fuCmdOk 0 0x13 true) ∧
    (∀ o ∈ [OState.recvResp, .recvData, .sendData, .sendCmd, .cfgVoltage, .idle],
      (at_ o).upq.head? = some f ∧ (at_ o).pending = []) ∧
    ((at_ .recvResp).ostate = .recvResp ∧ (at_ .recvData).ostate = .recvData) ∧
    (∀ o ∈ [OState.sendData, .sendCmd, .cfgVoltage],
      (at_ o).ostate ≠ .recvResp ∧ (at_ o).ostate ≠ .recvData ∧ (at_ o).ostate ≠ .idle) ∧
    ((at_ .idle).ostate = .idle ∧ (at_ .idle).cfg.uqIdlePolicy = .hold) ∧
    ((inState .sendCmd).upq.head? = none ∧ (inState .sendCmd).ostate ≠ .idle) ∧
    (State.reset.ostate = .idle ∧ State.reset.upq.head? = none ∧ State.reset.pending = []) ∧
    (deferring.ostate = .idle ∧ deferring.upq.head? = none ∧ deferring.pending = .command :: []) :=
  ⟨rfl, rfl, by decide, ⟨rfl, rfl⟩, by decide, ⟨rfl, rfl⟩, ⟨rfl, by decide⟩, ⟨rfl, rfl, rfl⟩, rfl, rfl, rfl⟩

theorem witness_ConfigurationFramesLatch :
    ∀ p ∈ [(WState.idle, RState.idle), (.cmdClk8, .idle), (.idle, .cmdClk8)],
      let s := busState p.1 p.2 (frame 0 0x06 false)
      ((s.writer.st = .idle ∧ s.reader.st = .idle) ∨ (s.writer.st = .cmdClk8 ∧ s.reader.st = .idle) ∨
        (s.writer.st = .idle ∧ s.reader.st = .cmdClk8)) ∧
      s.downq.head? = some (frame 0 0x06 false) ∧ s.cfg.byteOrder = .lsbFirst := by decide

/-- The first and the last trailing clock of the writer and of the reader. -/
theorem witness_LatchRunsDuringTrailingClocks :
    let f := frame 0 0x06 false
    let w := fun c : BitVec 7 => { busState .cmdClk8 .idle f with
      writer := { st := .cmdClk8, initDone := true, cnt := c, bit := 0 } }
    let r := fun c : BitVec 3 => { busState .idle .cmdClk8 f with
      reader := { Reader.atReset with st := .cmdClk8, cnt := c } }
    Instr.fdCfgTc0 0 0 false ∈ configOps 0 0 false ∧
    (∀ c ∈ [0#7, 7], (w c).downq.head? = some f ∧ (w c).writer.st = .cmdClk8 ∧ (w c).reader.st = .idle) ∧
    (∀ c ∈ [0#3, 7], (r c).downq.head? = some f ∧ (r c).writer.st = .idle ∧ (r c).reader.st = .cmdClk8) := by
  decide

theorem witness_ConfigFieldReachesFramer : Config.default.modes.injective = true := by decide

theorem witness_DispatchStartsWriterOrReader :
    (busState .idle .idle (frame 0 0 false)).writer.st = .idle ∧
    (busState .idle .idle (frame 0 0 false)).reader.st = .idle := by decide

theorem witness_WriterShiftsMsbFirst :
    let s := fun b : BitVec 3 => { busState .cmdWrite .idle (frame 0xA5 0x02 true) with
      writer := { st := .cmdWrite, initDone := true, cnt := 0, bit := b } }
    (∀ b ∈ [0#3, 6], (s b).writer.st = .cmdWrite ∧ (s b).reader.st = .idle ∧ (s b).writer.bit ≠ 7) ∧
    ((s 7).writer.st = .cmdWrite ∧ (s 7).reader.st = .idle ∧ (s 7).writer.bit = 7 ∧
      (s 7).downq.head? = some (frame 0xA5 0x02 true)) := by decide

theorem witness_PreambleLastsEightyClocks :
    let f := frame 0x40 0x02 false
    let s := { busState .init .idle f with writer := { Writer.atReset with st := .init } }
    s.cfg.modes.injective = true ∧ s.writer.st = .init ∧ s.writer.cnt = 0 ∧ s.reader.st = .idle ∧
    s.downq.head? = some f ∧ f.ctrl = tag s.cfg.modes .cmd .write .xfer ∧
    (List.replicate 80 (line true)).length = 80 := by decide

theorem witness_CommandByteReachesTheLine :
    ∀ l : Bool,
      let f := frame 0xA5 0x02 l
      let s := busState .idle .idle f
      s.cfg.modes.injective = true ∧ s.writer.st = .idle ∧ s.writer.initDone = true ∧
      s.reader.st = .idle ∧ s.downq.head? = some f ∧ f.ctrl = tag s.cfg.modes .cmd .write .xfer ∧
      (List.replicate 9 (line true)).length = 9 := by decide

theorem witness_TrailingClocksAreEight :
    let s := fun (w : WState) (r : RState) => { busState w r (frame 0 0 false) with downq := .empty }
    (List.replicate 8 (line true)).length = 8 ∧
    ((s .cmdClk8 .idle).downq.head? = none ∧ (s .cmdClk8 .idle).writer.st = .cmdClk8 ∧
      (s .cmdClk8 .idle).writer.cnt = 0 ∧ (s .cmdClk8 .idle).reader.st = .idle) ∧
    ((s .idle .cmdClk8).downq.head? = none ∧ (s .idle .cmdClk8).reader.st = .cmdClk8 ∧
      (s .idle .cmdClk8).reader.cnt = 0 ∧ (s .idle .cmdClk8).writer.st = .idle) := by decide

theorem witness_StartBitWaitTick :
    let s := fun (x : SState) (b : Bool) => { busState .idle .cmdReadstart (frame 5 0 true) with
      sampler := { Sampler.off with st := x }, bin := line b }
    (∀ x ∈ [SState.idle, .readstart, .read], ∀ b : Bool,
      (s x b).writer.st = .idle ∧ (s x b).reader.st = .cmdReadstart) ∧
    (s .idle true).sampler.st = .idle ∧
    ((s .readstart true).sampler.st = .readstart ∧ (s .readstart true).bin.cmdI = true) ∧
    ((s .readstart false).sampler.st = .readstart ∧ (s .readstart false).bin.cmdI = false) ∧
    (s .read true).sampler.st = .read := by decide

/-- Threshold 0 (its first tick and the tick that gives up) and threshold 2. -/
theorem witness_CommandTimeoutIsExact :
    ∀ t ∈ [0, 2],
      let f := frame 5 0 true
      let s := { busState .idle .cmdReadstart f with
        fcfg := { FramerRegs.zero with cmdtimeout := BitVec.ofNat 32 t } }
      let ticks := fun n => List.replicate n (line true)
      s.cfg.modes.injective = true ∧ s.writer.st = .idle ∧ s.reader.st = .cmdReadstart ∧
      s.reader.timeout = 0 ∧ s.sampler = .off ∧ s.downq.head? = some f ∧
      f.ctrl = tag s.cfg.modes .cmd .read .xfer ∧
      (∀ b ∈ ticks t, b.cmdI = true) ∧ (ticks t).length ≤ s.fcfg.cmdtimeout.toNat ∧
      (∀ b ∈ ticks (t + 1), b.cmdI = true) ∧ (ticks (t + 1)).length = s.fcfg.cmdtimeout.toNat + 1 := by
  decide

theorem witness_TimeoutIsReportedOnce :
    let s := busState .idle .timeout (frame 5 0 true)
    let full := { s with upq := two (frame 0 0 false) (frame 0 0 false) }
    (s.writer.st = .idle ∧ s.reader.st = .timeout ∧ s.upq.ready = true ∧
      s.downq.head? = some (frame 5 0 true)) ∧
    (full.writer.st = .idle ∧ full.reader.st = .timeout ∧ full.upq.ready = false) := by decide

/-- `UPQ` full; the first and the last bit that complete no byte; the first byte of a request for six; the
sixth. -/
theorem witness_ResponseByteIsForwarded :
    let s := fun n : Byte => { busState .idle .cmdRead (frame 5 0 true) with
      reader := { Reader.atReset with st := .cmdRead, toread := 5, last := true, cread := n }
      sampler := { st := .read, shift := 0, cnt := 7 } }
    { s 0 with upq := two (frame 0 0 false) (frame 0 0 false) }.upq.ready = false ∧
    (∀ k ∈ [0#3, 6], (Sampler.mk .read 0 k).st = .read ∧ (Sampler.mk .read 0 k).cnt ≠ 7) ∧
    (∀ n ∈ [0#8, 4, 5], (s n).writer.st = .idle ∧ (s n).reader.st = .cmdRead ∧
      (s n).cfg.readlenBias = 1 ∧ (s n).sampler.st = .read ∧ (s n).sampler.cnt = 7 ∧
      (s n).upq.ready = true) ∧
    (∀ n ∈ [0#8, 4], (s n).reader.cread ≠ (s n).reader.toread) ∧
    ((s 5).reader.cread = (s 5).reader.toread ∧ (s 5).downq.head? = some (frame 5 0 true)) := by decide

theorem witness_LineBitsBecomeResponseByte :
    let f := frame 5 0 true
    let s := { busState .idle .cmdRead f with
      reader := { Reader.atReset with st := .cmdRead, toread := 5, cread := 4 }
      sampler := { st := .read, shift := 0, cnt := 0 } }
    s.cfg.modes.injective = true ∧ s.writer.st = .idle ∧ s.reader.st = .cmdRead ∧
    s.reader.lastByte s.cfg = false ∧ s.sampler.st = .read ∧ s.sampler.cnt = 0 ∧ s.upq.ready = true ∧
    s.downq.head? = some f ∧ f.ctrl = tag s.cfg.modes .cmd .read .xfer ∧
    ([true, false, true, false, true, false, true, false].map line).map BusIn.cmdI =
      [(0xAA#8).getLsbD 7, (0xAA#8).getLsbD 6, (0xAA#8).getLsbD 5, (0xAA#8).getLsbD 4,
       (0xAA#8).getLsbD 3, (0xAA#8).getLsbD 2, (0xAA#8).getLsbD 1, (0xAA#8).getLsbD 0] := by decide

/-- With `f_blocksize = 4`: the fifth and the sixth frame; a timeout; a full `UPQ`; a wait. -/
theorem witness_DatapathServesReadRequest :
    let s := fun (n : Nat) (a : DpAct) => { busState .idle .idle (frame 0 1 true) with
      fcfg := { FramerRegs.zero with blocksize := 4 }, datapath := { sent := n, acked := false }
      bin := choice a }
    (∀ a ∈ [DpAct.deliver 7, .timeout, .wait, .take, .ack 2 true], (s 4 a).writer.st = .idle ∧ (s 4 a).reader.st = .idle ∧
      (s 4 a).upq.ready = true ∧ (s 4 a).bin.dp = a ∧ (s 4 a).downq.head? = some (frame 0 1 true)) ∧
    { s 4 .timeout with upq := two (frame 0 0 false) (frame 0 0 false) }.upq.ready = false ∧
    (s 4 (.deliver 7)).datapath.sent + 1 < (s 4 (.deliver 7)).fcfg.blocksize.toNat + 2 ∧
    (s 5 (.deliver 7)).datapath.sent + 1 = (s 5 (.deliver 7)).fcfg.blocksize.toNat + 2 := by decide

/-- The byte that ends a block, before and after its acknowledgement; with a full `UPQ`; and a byte that ends
none. -/
theorem witness_DatapathServesWriteByte :
    let s := fun (k : Bool) (a : DpAct) => { busState .idle .idle (frame 0 3 true) with
      datapath := { sent := 0, acked := k }, bin := choice a }
    (∀ k : Bool, ∀ a ∈ [DpAct.take, .ack 2 true, .ack 5 false, .wait, .timeout, .deliver 7],
      (s k a).writer.st = .idle ∧ (s k a).reader.st = .idle ∧
      (s k a).downq.head? = some (frame 0 3 true) ∧ (s k a).bin.dp = a ∧
      (s k a).upq.ready = true ∧ (s k a).datapath.acked = k) ∧
    { s false (.ack 2 true) with upq := two (frame 0 0 false) (frame 0 0 false) }.upq.ready = false ∧
    (busState .idle .idle (frame 0 3 false)).downq.head? = some (frame 0 3 false) := by decide

theorem witness_BusyFramerStartsNothing :
    ((busState .idle .cmdClk8 (frame 0 0 false)).writer.st = .idle ∧
      (busState .idle .cmdClk8 (frame 0 0 false)).reader.st = .cmdClk8) ∧
    ((busState .cmdClk8 .idle (frame 0 0 false)).writer.st = .cmdClk8 ∧
      (busState .cmdClk8 .idle (frame 0 0 false)).reader.st = .idle) ∧
    Instr.fdDataWr 0 false ∈ [Instr.fdCmdRd 0 false, .fdCmdWr 0 false, .fdDataRd 0 false,
      .fdDataWr 0 false] := by decide

/-- RECV_RESP with a frame to take, for the statements of RECV_RESP. -/
def responding (dir : BitVec 2) : State :=
  { inState .recvResp with
    desc := { arg := 0, idx := 0, kind := 1, dir := dir }, upq := one (frame 0 0 true) }

/-- Also of the reserved status 7. -/
theorem witness_ResponseByteShiftsIn :
    (responding 0).ostate = .recvResp ∧ (responding 0).upq.head? = some (frame 0 0 true) ∧
    Instr.fuDataAccepted 0 0 false ∈ byteOps 0 0 false ∧
    { responding 0 with upq := one (frame 0x77 0x0F false) }.upq.head? = some (frame 0x77 0x0F false) ∧
    decodeUp (frame 0x77 0x0F false) = .error (.noUpOperation 7 1) :=
  ⟨rfl, rfl, by decide, rfl, rfl⟩

theorem witness_FinalResponseByteBranches :
    (∀ d ∈ [0#2, 1, 2], (responding d).ostate = .recvResp ∧
      (responding d).upq.head? = some (frame 0 0 true) ∧ (responding d).desc.dir = d) ∧
    Instr.fuCmdOk 0 0x13 true ∈ byteOps 0 0x13 true ∧
    { responding 0 with upq := one (frame 0x13 0x1F true) }.upq.head? = some (frame 0x13 0x1F true) ∧
    decodeUp (frame 0x13 0x1F true) = .error (.noUpOperation 15 1) :=
  ⟨by decide, by decide, rfl, rfl⟩

/-- RECV_DATA with a frame to take. -/
def receiving (p : CrcPhase) (k c b n : BitVec 16) (rdy : Bool) : State :=
  { inState .recvData with
    chk := { crc := 0x1021, cnt := k, phase := p, hi := 0x10 }
    host := { HostRegs.zero with blocksize := b, blockcount := c }
    blkcnt := n
    upq := one (frame 0 1 false)
    cin := { host := none, di := none, doReady := rdy } }

theorem witness_TimeoutReturnsToIdle :
    (responding 0).ostate = .recvResp ∧ (responding 0).upq.head? = some (frame 0 0 true) ∧
    (receiving .payload 0 0 4 0 true).ostate = .recvData ∧
    (receiving .payload 0 0 4 0 true).upq.head? = some (frame 0 1 false) ∧
    Instr.fuCmdTimeout 0 0 true ∈ timeoutOps 0 0 true ∧
    Instr.fuDataTimeout 0 0x55 false ∈ timeoutOps 0 0x55 false := by decide

/-- With `blocksize = 4`: the third byte and the fourth; the largest block, whose count does not wrap. -/
theorem witness_PayloadByteReachesSink :
    let ok := fun s : State => s.ostate = .recvData ∧ s.upq.head? = some (frame 0 1 false) ∧
      s.chk.phase = .payload
    (ok (receiving .payload 2 0 4 0 false) ∧ (receiving .payload 2 0 4 0 false).cin.doReady = false) ∧
    (ok (receiving .payload 2 0 4 0 true) ∧ (receiving .payload 2 0 4 0 true).cin.doReady = true ∧
      (receiving .payload 2 0 4 0 true).chk.cnt.toNat + 1 ≠
        (receiving .payload 2 0 4 0 true).host.blocksize.toNat) ∧
    (ok (receiving .payload 65534 0 65535 0 true) ∧
      (receiving .payload 65534 0 65535 0 true).chk.cnt.toNat + 1 =
        (receiving .payload 65534 0 65535 0 true).host.blocksize.toNat) ∧
    Instr.fuDataOk 0 0 false ∈ okOps 0 0 false := by decide

theorem witness_TrailerBytesEndTheBlock :
    let ok := fun s : State => s.ostate = .recvData ∧ s.upq.head? = some (frame 0 1 false)
    (ok (receiving .crcHi 0 1 4 0 true) ∧ (receiving .crcHi 0 1 4 0 true).chk.phase = .crcHi) ∧
    (ok (receiving .crcLo 0 1 4 0 true) ∧ (receiving .crcLo 0 1 4 0 true).chk.phase = .crcLo ∧
      (receiving .crcLo 0 1 4 0 true).blkcnt ≠ (receiving .crcLo 0 1 4 0 true).host.blockcount) ∧
    (ok (receiving .crcLo 0 1 4 1 true) ∧ (receiving .crcLo 0 1 4 1 true).chk.phase = .crcLo ∧
      (receiving .crcLo 0 1 4 1 true).blkcnt = (receiving .crcLo 0 1 4 1 true).host.blockcount) ∧
    Instr.fuDataOk 0 0x21 true ∈ okOps 0 0x21 true := by decide

theorem witness_OtherStatusDropsTheByte :
    let ok := fun s : State => s.ostate = .recvData ∧ s.upq.head? = some (frame 0 1 false)
    (ok (receiving .payload 0 1 4 0 true) ∧
      (receiving .payload 0 1 4 0 true).blkcnt ≠ (receiving .payload 0 1 4 0 true).host.blockcount) ∧
    (ok (receiving .payload 0 1 4 1 true) ∧
      (receiving .payload 0 1 4 1 true).blkcnt = (receiving .payload 0 1 4 1 true).host.blockcount) ∧
    Instr.fuDataCrcerr 0 0 true ∈ ackOps 0 0 true := by decide

theorem witness_AcknowledgementsAreInspected :
    let s := { inState .sendData with upq := one (frame 0 5 false) }
    s.ostate = .sendData ∧ s.upq.head? = some (frame 0 5 false) := by decide

theorem witness_UpFramesWaitOutsideConsumingStates :
    let drain := { State.reset with
      cfg := { Config.default with uqIdlePolicy := .drain }, upq := one (frame 0 5 false) }
    ConsumesNone State.reset ∧ ConsumesNone (inState .sendCmd) ∧
    (drain.ostate = .idle ∧ drain.cfg.uqIdlePolicy = .drain ∧
      drain.upq.head? = some (frame 0 5 false)) := by
  unfold ConsumesNone; decide

/-- The reserved status 7, and DATA_ACCEPTED with the channel bit CMD. -/
theorem witness_UnnamedStatusesAreDefined :
    decodeUp (frame 0x77 0x0F false) = .error (.noUpOperation 7 1) ∧
    decodeUp (frame 0 0x04 false) = .error (.noUpOperation 2 0) ∧
    ∀ o ∈ [OState.recvResp, .recvData, .sendData],
      { inState o with upq := one (frame 0x77 0x0F false) }.upq.head? = some (frame 0x77 0x0F false) ∧
      { inState o with upq := one (frame 0x77 0x0F false) }.ostate = o ∧
      (frame 0x77 0x0F false).status ≠ 2 ∧
      { inState o with upq := one (frame 0 0x04 false) }.upq.head? = some (frame 0 0x04 false) ∧
      (frame 0 0x04 false).status = 2 := ⟨rfl, rfl, by decide⟩

/-- The first and the last byte of each field. -/
theorem witness_ConfigStateStreamsField :
    quiet.host = none ∧ State.reset.cfg.byteOrder = .lsbFirst ∧ State.reset.cfg.modes = .listOrder ∧
    ∀ p ∈ [(OState.cfgTimeoutCmd, 4, 0), (.cfgTimeoutCmd, 4, 3), (.cfgTimeoutData, 4, 0),
           (.cfgTimeoutData, 4, 3), (.cfgBlksize, 2, 0), (.cfgBlksize, 2, 1), (.cfgVoltage, 1, 0)],
      let s := { inState p.1 with pos := BitVec.ofNat 3 p.2.2 }
      s.downq.ready = true ∧ s.ostate = p.1 ∧ s.pos.toNat = p.2.2 ∧ p.2.2 < p.2.1 ∧
      { s with downq := two (frame 0 0 false) (frame 0 0 false) }.downq.ready = false := by decide

theorem witness_CommandBytesAreEmitted :
    quiet.host = none ∧
    ∀ k ∈ [0, 4, 5], ∀ kind ∈ [0#2, 1, 2],
      let s := { inState .sendCmd with
        pos := BitVec.ofNat 3 k, desc := { arg := 0x1AA, idx := 8, kind := kind, dir := 0 } }
      s.downq.ready = true ∧ s.cfg.modes = .listOrder ∧ s.ostate = .sendCmd ∧ s.pos.toNat = k ∧ k ≤ 5 ∧
      s.desc.kind = kind ∧
      { s with downq := two (frame 0 0 false) (frame 0 0 false) }.downq.ready = false := by decide

theorem witness_RequestsAreSentOnce :
    quiet.host = none ∧
    ∀ o ∈ [OState.recvResp, .recvData],
      let s := inState o
      let full := { s with downq := two (frame 0 0 false) (frame 0 0 false) }
      let sent := { s with reqSent := true }
      (s.upq.head? = none ∧ s.cfg.modes = .listOrder ∧ s.cfg.readlenBias = 1 ∧ s.ostate = o ∧
        s.downq.ready = true ∧ s.reqSent = false) ∧
      full.downq.ready = false ∧ sent.reqSent = true := by decide

/-- SEND_DATA with the generator in a phase, in block `n` of a transfer of two blocks of two bytes. -/
def emitting (p : CrcPhase) (n : BitVec 16) : State :=
  { inState .sendData with
    gen := { Generator.cleared with phase := p }, blkcnt := n
    host := { HostRegs.zero with blocksize := 2, blockcount := 1 } }

/-- A control tick in which DATA_SRC has a byte. -/
def offering : CtlIn := { host := none, di := some 0xA1, doReady := true }

theorem witness_WriteBlockIsEmitted :
    (quiet.host = none ∧ quiet.di = none) ∧ (offering.host = none ∧ offering.di = some 0xA1) ∧
    (∀ p ∈ [CrcPhase.payload, .crcHi, .crcLo],
      (emitting p 1).upq.head? = none ∧ (emitting p 1).ostate = .sendData ∧
      (emitting p 1).downq.ready = true ∧ (emitting p 1).gen.phase = p ∧
      { emitting p 1 with downq := two (frame 0 0 false) (frame 0 0 false) }.downq.ready = false) ∧
    (emitting .crcLo 0).ostate = .sendData ∧ (emitting .crcLo 0).downq.ready = true ∧
    (emitting .crcLo 0).cfg.modes = .listOrder ∧
    (emitting .crcLo 0).blkcnt ≠ (emitting .crcLo 0).host.blockcount ∧
    (emitting .crcLo 1).blkcnt = (emitting .crcLo 1).host.blockcount := by decide

theorem witness_Crc7Properties :
    [true, false].length = [false, true].length ∧ 0 < [true, false].length ∧
    1 < [true, false].length := by decide

theorem witness_GeneratorCheckerRoundTrip :
    let s := { State.reset with host := { HostRegs.zero with blocksize := 4 } }
    [0xDE#8, 0xAD, 0xBE, 0xEF] ≠ [] ∧ [0xDE#8, 0xAD, 0xBE, 0xEF].length = s.host.blocksize.toNat ∧
    s.chk = .cleared ∧ s.dataf.crcerr = false := by decide

/-- The block of V-CRC16-4 and its bits, and the block with one bit changed. -/
def sent : List Byte := [0xDE, 0xAD, 0xBE, 0xEF]
/-- V-CRC16-14: `BE` received as `AE`. -/
def receivedPayloadFlip : List Byte := [0xDE, 0xAD, 0xAE, 0xEF, 0xC4, 0x57]
/-- The last bit of the trailer changed. -/
def receivedTrailerFlip : List Byte := [0xDE, 0xAD, 0xBE, 0xEF, 0xC4, 0x56]

/-- The bits of the block of `sent` with one of them inverted. -/
def flipped (i : Nat) : List Bool :=
  flipBit ((sent ++ [(crc16 0x1021 sent).extractLsb' 8 8,
    (crc16 0x1021 sent).extractLsb' 0 8]).flatMap (bitsMsbFirst · 8)) i

theorem witness_SingleBitCorruptionIsReported :
    let s := { State.reset with host := { HostRegs.zero with blocksize := 4 } }
    s.cfg.crc16Poly = 0x1021 ∧ sent ≠ [] ∧ sent.length = s.host.blocksize.toNat ∧ s.chk = .cleared ∧
    (receivedPayloadFlip.length = sent.length + 2 ∧ 19 < 8 * receivedPayloadFlip.length) ∧
    (receivedTrailerFlip.length = sent.length + 2 ∧ 47 < 8 * receivedTrailerFlip.length) := by decide

theorem witness_SingleBitCorruptionIsReported_bits :
    receivedPayloadFlip.flatMap (bitsMsbFirst · 8) = flipped 19 ∧
    receivedTrailerFlip.flatMap (bitsMsbFirst · 8) = flipped 47 := by decide +kernel

theorem witness_DecodeOfEncode : Config.default.modes.injective = true := by decide

theorem witness_EncodeOfDecodedFrame :
    decode .default (.down (frame 0x11 0x05 true)) = .ok (.fdCfgTc0 1 0x11 true) ∧
    decode .default (.up (frame 0x13 0xE0 true)) = .ok (.fuCmdOk 7 0x13 true) := ⟨rfl, rfl⟩

/-- The first and the last reserved mode. -/
theorem witness_ReservedModesAreDiscarded :
    ∀ m ∈ [12#6, 63],
      let f := frame 0x11 (downTag m 0) false
      let s := busState .idle .idle f
      s.downq.head? = some f ∧ (∀ k ∈ Mode.all, s.cfg.modes.code k ≠ f.ctrl.extractLsb' 2 6) ∧
      s.writer.st = .idle ∧ s.reader.st = .idle := by decide

/-- Two states that agree in what reset keeps, and in nothing else. -/
theorem witness_ResetReachesEverything :
    let t := { inState .sendData with response := 7, fcfg := { FramerRegs.zero with blocksize := 4 } }
    t.cfg = State.reset.cfg ∧ t.env = State.reset.env ∧ t.time = State.reset.time ∧ t ≠ State.reset := by
  decide

theorem test_reset_inv : Inv State.reset where
  cfg := by decide
  downq := ⟨by decide, by decide, by decide⟩
  upq := ⟨by decide, by decide, by decide⟩
  sequence := ⟨by decide, by decide, by decide, by decide⟩
  framer := {
    exclusion := .inl rfl
    writerHead := fun h => by cases h
    readerHead := fun h => by cases h
    initCount := fun h => by cases h
    clk8Count := fun h => by cases h
    initDone := fun h => by rcases h with h | h <;> cases h
    timeout := fun h => by cases h
    startBit := fun h => by cases h
    sampling := fun h => by cases h }
  datapath := ⟨fun h => absurd rfl h, fun h => by cases h⟩
  lines := fun _ h => by cases h

/-- The reader in its TIMEOUT state, its request at the head, and a bus tick next. -/
def reporting : State :=
  { busState .idle .timeout (frame 5 0 true) with env := [.bus (line true)] }

theorem test_reporting_inv : Inv reporting where
  cfg := by decide
  downq := ⟨by decide, by decide, by decide⟩
  upq := ⟨by decide, by decide, by decide⟩
  sequence := ⟨by decide, by decide, by decide, by decide⟩
  framer := {
    exclusion := .inl rfl
    writerHead := fun h => by cases h
    readerHead := fun _ => ⟨frame 5 0 true, rfl, rfl⟩
    initCount := fun h => by cases h
    clk8Count := fun h => by cases h
    initDone := fun h => by rcases h with h | h <;> cases h
    timeout := fun h => by cases h
    startBit := fun h => by cases h
    sampling := fun h => by cases h }
  datapath := ⟨fun h => absurd rfl h, fun h => by cases h⟩
  lines := fun _ h => by cases h

/-- A step that pops one queue and pushes the other; a frame not seen yet, and a place not known yet. -/
theorem witness_FramesKeepTheirOrder :
    (Inv reporting ∧ nextEvent reporting ≠ .reset ∧ ∃ t, step reporting = .next t) ∧
    ∀ q : QueueName, ∀ k ∈ [0, 1],
      let h : Queue := { items := [frame 0 0 false], vis := 0, cred := k }
      let s := { State.reset with downq := h, upq := h }
      (s.queue q).vis < (s.queue q).items.length ∧
      (k = 0 → (s.queue q).cred < 2 - (s.queue q).items.length) :=
  ⟨⟨test_reporting_inv, by decide, _, rfl⟩, fun q => by cases q <;> decide⟩

/-! A fair run: DATAPATH takes a byte of a write block in its first tick, the place it frees becomes known, and
then nothing is left to do; the four kinds of event that the scheduler must keep choosing come round in turn. -/

/-- DATAPATH takes a byte in a tick that is not clocked. -/
def taking : BusIn := { cmdI := true, dp := .take, dpClkEn := false, dpDat := none }

/-- The events of the run. -/
def schedule (n : Nat) : Event :=
  match n % 4 with
  | 0 => .bus taking
  | 1 => .control quiet
  | 2 => .syncCred .downq
  | _ => .syncVis .downq

/-- The states of the run: the byte at the head; it is popped; the freed place is known. -/
def fairStates (n : Nat) : State :=
  { State.reset with
    downq := if n = 0 then one (frame 0xA1 3 false)
      else if n ≤ 2 then { items := [], vis := 0, cred := 1 } else .empty
    cin := quiet, bin := taking, time := n }

theorem fairStates_step (n : Nat) :
    step ((fairStates n).withEvent (schedule n)) = .next (fairStates (n + 1)) := by
  match n with
  | 0 => rfl
  | 1 => rfl
  | 2 => rfl
  | k + 3 =>
    unfold schedule
    split <;> rfl

/-- Each kind of event comes again. -/
theorem schedule_comes_again (n r : Nat) : ∃ m, n ≤ m ∧ schedule m = schedule r :=
  ⟨4 * n + r, by omega, by unfold schedule; rw [Nat.mul_add_mod]⟩

theorem schedule_no_reset (n : Nat) : schedule n ≠ .reset := by
  unfold schedule
  split <;> exact nofun

/-- After the first event nothing is in the queues, and `UPQ` is ready throughout. -/
theorem fairStates_items (n : Nat) (h : n ≠ 0) (q : QueueName) : ((fairStates n).queue q).items = [] := by
  cases q with
  | downq => unfold fairStates; simp only [State.queue, if_neg h]; split <;> rfl
  | upq => rfl

theorem fairStates_ready : UpqServes fairStates := fun n _ => ⟨n, Nat.le_refl n, rfl⟩

theorem fairStates_inv : Inv (fairStates 0) where
  cfg := by decide
  downq := ⟨by decide, by decide, by decide⟩
  upq := ⟨by decide, by decide, by decide⟩
  sequence := ⟨by decide, by decide, by decide, by decide⟩
  framer := {
    exclusion := .inl rfl
    writerHead := fun h => by cases h
    readerHead := fun h => by cases h
    initCount := fun h => by cases h
    clk8Count := fun h => by cases h
    initDone := fun h => by rcases h with h | h <;> cases h
    timeout := fun h => by cases h
    startBit := fun h => by cases h
    sampling := fun h => by cases h }
  datapath := ⟨fun h => absurd rfl h, fun h => by cases h⟩
  lines := fun _ h => by cases h

theorem witness_FairRunsMakeProgress :
    FairRun schedule fairStates ∧ Inv (fairStates 0) ∧ UpqServes fairStates ∧
    DatapathOwns (fairStates 0) ∧ (fairStates 0).downq.items ≠ [] := by
  refine ⟨⟨fairStates_step, fun q n => ⟨fun h => ?_, fun h => ?_⟩, fun n => ⟨?_, ?_⟩, fun _ n h => ?_,
    schedule_no_reset⟩, fairStates_inv, fairStates_ready,
    ⟨by decide, .write, frame 0xA1 3 false, rfl, rfl⟩, by decide⟩
  · by_cases hn : n = 0
    · subst hn; cases q <;> exact absurd h (by decide)
    · rw [fairStates_items n hn q] at h; exact absurd h (Nat.not_lt_zero _)
  · cases q with
    | downq => exact schedule_comes_again n 2
    | upq => exact absurd h (Nat.lt_irrefl 2)
  · obtain ⟨m, hm, e⟩ := schedule_comes_again n 1
    exact ⟨m, quiet, hm, e⟩
  · obtain ⟨m, hm, e⟩ := schedule_comes_again n 0
    exact ⟨m, taking, hm, e⟩
  · by_cases hn : n = 0
    · exact ⟨0, by omega, frame 0xA1 3 false, rfl⟩
    · obtain ⟨_, _, f, hf, _⟩ := h
      have hi : (fairStates n).downq.items = [] := fairStates_items n hn .downq
      simp [Queue.head?, hi] at hf

theorem witness_SidesShareOnlyTheQueues :
    ∀ e ∈ [Event.control quiet, .bus (line true), .syncVis .upq, .syncCred .downq],
      (after (runEvent e reporting) fun _ => ()) = some () := by decide

/-- Two states that differ in the control side alone, and a bus tick from each. -/
theorem witness_BusTickIgnoresControlSide :
    let u := { reporting with ostate := .sendData, response := 7 }
    SameBus reporting u ∧ u.downq = reporting.downq ∧ u.upq = reporting.upq ∧ u.cfg = reporting.cfg ∧
    ∃ t, busTick (line true) reporting = .next t :=
  ⟨⟨rfl, rfl, rfl, rfl, rfl, rfl, rfl⟩, rfl, rfl, rfl, _, rfl⟩

theorem witness_BusSidePushesOnlyWhenAsked :
    Inv reporting ∧ ∃ t, busTick (line true) reporting = .next t ∧ t.upq.items ≠ reporting.upq.items :=
  ⟨test_reporting_inv, _, rfl, by decide⟩

/-- An accepted `command` write next. -/
theorem witness_OrchestratorArcs :
    let s := State.reset.withEvent (.control (access true 1 0x0801))
    nextEvent s ≠ .reset ∧ ∃ t, step s = .next t := ⟨by decide, _, rfl⟩

theorem witness_OnlyACommandClearsFlags :
    nextEvent reporting ≠ .reset ∧ ∃ t, step reporting = .next t ∧
      ¬(reporting.ostate = .idle ∧ t.ostate = .sendCmd) := ⟨by decide, _, rfl, by decide⟩

theorem witness_InvAfterReset : Config.default.wellFormed = true := by decide

theorem witness_StepKeepsInv : Inv reporting ∧ ∃ t, step reporting = .next t :=
  ⟨test_reporting_inv, _, rfl⟩

theorem witness_InvStatesNeverFault : Inv reporting := test_reporting_inv

theorem witness_StepKeepsFlagPhases :
    reporting.cfg.doneOnTimeout = false ∧ FlagsOk reporting ∧ ∃ t, step reporting = .next t :=
  ⟨rfl, .inl ⟨rfl, rfl⟩, _, rfl⟩

/-- After a read transfer with a bad block. -/
theorem witness_EventRegisterCombinations :
    FlagsOk { State.reset with
      cmdf := { done := true, timeout := false, crcEn := true, crcCheck := 0 }
      dataf := { done := true, timeout := false, werr := false, crcerr := true } } := by
  unfold FlagsOk; exact .inr (by decide)

end Sys2Proof.Tests
end

section
/-! PROOFS. The control side of one tick: what it leaves to the bus side (R20), what it does to its ends of
the two queues (R322, R323), that it keeps the sequencing state (R37, R39, R216), and that it never faults. -/

namespace Sys2Proof.Machine

/-! Each end of a queue. -/

/-- What one tick of the producer may do to a queue: nothing, or one push with a credit in hand (R322). -/
def Queue.ProducerStep (q q' : Queue) : Prop := q' = q ∨ (q.ready = true ∧ ∃ f, q' = q.push f)

/-- What one tick of the consumer may do to a queue: nothing, or one pop of a visible head (R323). -/
def Queue.ConsumerStep (q q' : Queue) : Prop := q' = q ∨ ((∃ f, q.head? = some f) ∧ q' = q.pop)

theorem QueueOk.producerStep {q q' : Queue} (h : QueueOk q) (hp : q.ProducerStep q') : QueueOk q' := by
  rcases hp with rfl | ⟨hr, f, rfl⟩
  · exact h
  · exact h.push f hr

theorem QueueOk.consumerStep {q q' : Queue} (h : QueueOk q) (hc : q.ConsumerStep q') : QueueOk q' := by
  rcases hc with rfl | ⟨_, rfl⟩
  · exact h
  · exact h.pop

theorem Queue.ProducerStep.head?_eq {q q' : Queue} (hp : q.ProducerStep q') (h : QueueOk q) :
    q'.head? = q.head? := by
  rcases hp with rfl | ⟨_, f, rfl⟩
  · rfl
  · exact Queue.head?_push h f

/-- A consumer takes no credit: a queue that is ready for its producer stays so (R322). -/
theorem Queue.ConsumerStep.ready {q q' : Queue} (hc : q.ConsumerStep q') (hr : q.ready = true) :
    q'.ready = true := by
  rcases hc with rfl | ⟨_, rfl⟩
  · exact hr
  · exact hr

/-! The sequencing state. -/

theorem SequenceOk.congr {s t : State} (h : SequenceOk s) (ho : t.ostate = s.ostate) (hp : t.pos = s.pos)
    (hb : t.blkcnt = s.blkcnt) (hd : t.desc = s.desc) : SequenceOk t :=
  ⟨by rw [ho, hp]; exact h.pos, by rw [ho, hb]; exact h.blkcnt, by rw [hd]; exact h.kind,
    by rw [hd]; exact h.dir⟩

/-- A state may be entered with both counters at 0. -/
theorem SequenceOk.enter {s t : State} (h : SequenceOk s) (hp : t.pos = 0) (hb : t.blkcnt = 0)
    (hd : t.desc = s.desc) : SequenceOk t :=
  ⟨by rw [hp]; exact Nat.zero_le _, fun _ _ => hb, by rw [hd]; exact h.kind, by rw [hd]; exact h.dir⟩

theorem SequenceOk.pos_eq_zero {s : State} (h : SequenceOk s) (ho : maxPos s.ostate = 0) : s.pos = 0 := by
  have := h.pos
  exact BitVec.eq_of_toNat_eq (by simpa [ho] using this)

/-- The last byte index of a configuration state is that of its field (R173 to R176). -/
theorem maxPos_fieldState (f : CfgField) : maxPos f.state + 1 = f.modes.length := by cases f <;> rfl

theorem fieldFrame_eq_some {c : Config} {h : HostRegs} {f : CfgField} {k : Nat} {fr : Frame}
    (e : fieldFrame c h f k = some fr) :
    k < f.modes.length ∧ fr.last = decide (k + 1 = f.modes.length) := by
  unfold fieldFrame at e
  split at e
  · cases e
  · rename_i hm
    cases e
    exact ⟨(List.getElem?_eq_some_iff.mp hm).1, rfl⟩

theorem fieldFrame_isSome (c : Config) (h : HostRegs) {f : CfgField} {k : Nat}
    (hk : k < f.modes.length) : ∃ fr, fieldFrame c h f k = some fr := by
  unfold fieldFrame
  rw [List.getElem?_eq_getElem hk]
  exact ⟨_, rfl⟩

/-! Moves of the control side. -/

/-- A move of the control side: the bus side and the parameters stay (R20), and the sequencing state is
kept in order. -/
structure ControlMove (s t : State) : Prop where
  bus : SameBus s t
  cfg : t.cfg = s.cfg
  sequence : SequenceOk s → SequenceOk t

theorem SameBus.trans {s t u : State} (h : SameBus s t) (h' : SameBus t u) : SameBus s u :=
  ⟨h'.fcfg.trans h.fcfg, h'.writer.trans h.writer, h'.reader.trans h.reader,
    h'.sampler.trans h.sampler, h'.datapath.trans h.datapath, h'.pads.trans h.pads, h'.bin.trans h.bin⟩

theorem ControlMove.trans {s t u : State} (h : ControlMove s t) (h' : ControlMove t u) :
    ControlMove s u :=
  ⟨h.bus.trans h'.bus, h'.cfg.trans h.cfg, h'.sequence ∘ h.sequence⟩

/-- A tick of the control side moves these fields only. -/
theorem SameBus.of_control (s : State) (h : HostRegs) (p : List Trigger) (d : Descriptor) (r : BitVec 120)
    (cf : CmdFlags) (df : DataFlags) (o : OState) (k : BitVec 3) (q : Bool) (n : BitVec 16) (g : Generator)
    (c : Checker) (dq uq : Queue) (out : CtlOut) (cin : CtlIn) (env : List Event) (time : Nat) :
    SameBus s { s with
      host := h, pending := p, desc := d, response := r, cmdf := cf, dataf := df, ostate := o, pos := k
      reqSent := q, blkcnt := n, gen := g, chk := c, downq := dq, upq := uq, out := out, cin := cin
      env := env, time := time } :=
  ⟨rfl, rfl, rfl, rfl, rfl, rfl, rfl⟩

theorem ControlMove.refl (s : State) : ControlMove s s := ⟨.of_control s .., rfl, id⟩

/-- A move that does not touch the sequencing state. -/
theorem ControlMove.of_update (s : State) (h : HostRegs) (p : List Trigger) (r : BitVec 120)
    (cf : CmdFlags) (df : DataFlags) (q : Bool) (g : Generator) (c : Checker) (dq uq : Queue)
    (out : CtlOut) :
    ControlMove s { s with
      host := h, pending := p, response := r, cmdf := cf, dataf := df, reqSent := q, gen := g, chk := c
      downq := dq, upq := uq, out := out } :=
  ⟨.of_control s .., rfl, fun h => h.congr rfl rfl rfl rfl⟩

/-! The producer port of `DOWNQ`. -/

theorem streamField_move {f : CfgField} {s t : State} (ho : s.ostate = f.state)
    (e : streamField f s = .next t) :
    ControlMove s t ∧ t.upq = s.upq ∧ s.downq.ProducerStep t.downq := by
  obtain ⟨fr, hfr, ⟨_, rfl⟩ | ⟨hr, _, rfl⟩ | ⟨hr, hl, rfl⟩⟩ := streamField_eq_next e
  · exact ⟨.refl _, rfl, .inl rfl⟩
  · refine ⟨⟨.of_control .., rfl, fun h => h.enter rfl ?_ rfl⟩, rfl, .inr ⟨hr, fr, rfl⟩⟩
    exact h.blkcnt (by rw [ho]; cases f <;> decide) (by rw [ho]; cases f <;> decide)
  · refine ⟨⟨.of_control .., rfl, fun h => ⟨?_, h.blkcnt, h.kind, h.dir⟩⟩, rfl,
      .inr ⟨hr, fr, rfl⟩⟩
    obtain ⟨hk, hlast⟩ := fieldFrame_eq_some hfr
    have hne : s.pos.toNat + 1 ≠ f.modes.length := by simpa [hl] using hlast
    have hm := maxPos_fieldState f
    have hp := s.pos.isLt
    show (s.pos + 1).toNat ≤ maxPos s.ostate
    rw [ho, BitVec.toNat_add]
    exact (Nat.mod_le _ _).trans (by show s.pos.toNat + 1 ≤ _; omega)

theorem sendCommand_move {s t : State} (ho : s.ostate = .sendCmd) (e : sendCommand s = .next t) :
    ControlMove s t ∧ t.upq = s.upq ∧ s.downq.ProducerStep t.downq := by
  obtain ⟨fr, _, ⟨_, rfl⟩ | ⟨hr, hp, rfl⟩ | ⟨hr, _, _, rfl⟩ | ⟨hr, _, _, rfl⟩⟩ := sendCommand_eq_next e
  · exact ⟨.refl _, rfl, .inl rfl⟩
  · refine ⟨⟨.of_control .., rfl, fun h => ⟨?_, h.blkcnt, h.kind, h.dir⟩⟩, rfl,
      .inr ⟨hr, fr, rfl⟩⟩
    show (s.pos + 1).toNat ≤ maxPos s.ostate
    rw [ho, BitVec.toNat_add]
    exact (Nat.mod_le _ _).trans (by show s.pos.toNat + 1 ≤ 5; omega)
  all_goals
    refine ⟨⟨.of_control .., rfl, fun h => h.enter rfl ?_ rfl⟩, rfl, .inr ⟨hr, fr, rfl⟩⟩
    exact h.blkcnt (by rw [ho]; decide) (by rw [ho]; decide)

theorem sendRequest_move (fr : Frame) (s : State) :
    ControlMove s (sendRequest fr s) ∧ (sendRequest fr s).upq = s.upq ∧
      s.downq.ProducerStep (sendRequest fr s).downq := by
  rcases sendRequest_cases fr s with ⟨_, hr, e⟩ | ⟨_, e⟩ <;> rw [e]
  · exact ⟨.of_update .., rfl, .inr ⟨hr, fr, rfl⟩⟩
  · exact ⟨.refl s, rfl, .inl rfl⟩

/-- The end of a block keeps to the states of the block loop, or ends them with the counter at 0. -/
theorem endBlock_move {s : State} (ho : s.ostate = .recvData ∨ s.ostate = .sendData) :
    ControlMove s (endBlock s) := by
  refine ⟨by constructor <;> simp, by simp, fun h => ?_⟩
  have hp := h.pos_eq_zero (by rcases ho with ho | ho <;> rw [ho] <;> rfl)
  rcases endBlock_cases s with ⟨_, e⟩ | ⟨_, e⟩ <;> rw [e]
  · exact h.enter hp rfl rfl
  · exact ⟨h.pos, fun h1 h2 => (ho.elim h1 h2).elim, h.kind, h.dir⟩

theorem sendBlockByte_move {s : State} (ho : s.ostate = .sendData) :
    ControlMove s (sendBlockByte s) ∧ (sendBlockByte s).upq = s.upq ∧
      s.downq.ProducerStep (sendBlockByte s).downq := by
  rcases sendBlockByte_cases s with e | ⟨hr, b, last, _, e⟩ <;> rw [e]
  · exact ⟨.of_update .., rfl, .inl rfl⟩
  · have push : ∀ o g f, ControlMove s { s with out := o, gen := g, downq := s.downq.push f } :=
      fun _ _ _ => .of_update ..
    cases last with
    | false => exact ⟨push .., rfl, .inr ⟨hr, _, rfl⟩⟩
    | true =>
      exact ⟨(push ..).trans (endBlock_move (.inr ho)), endBlock_upq _, .inr ⟨hr, _, endBlock_downq _⟩⟩

/-- The producer port: at most one push into `DOWNQ`, and nothing else that another side sees (R170 (b)). -/
theorem emit_move {s t : State} (e : emit s = .next t) :
    ControlMove s t ∧ t.upq = s.upq ∧ s.downq.ProducerStep t.downq := by
  unfold emit at e
  split at e <;> rename_i ho
  · cases e; exact ⟨.refl s, rfl, .inl rfl⟩
  · exact streamField_move (f := .cmdtimeout) ho e
  · exact streamField_move (f := .datatimeout) ho e
  · exact streamField_move (f := .blocksize) ho e
  · exact streamField_move (f := .voltage) ho e
  · exact sendCommand_move ho e
  · cases e; exact sendRequest_move _ s
  · cases e; exact sendRequest_move _ s
  · cases e; exact sendBlockByte_move ho

/-! The consumer port of `UPQ`. -/

theorem takeResponse_move {f : Frame} {s : State} (ho : s.ostate = .recvResp) :
    ControlMove s (takeResponse f s) ∧ (takeResponse f s).downq = s.downq ∧
      (takeResponse f s).upq = s.upq := by
  have zero : SequenceOk s → s.pos = 0 ∧ s.blkcnt = 0 := fun h =>
    ⟨h.pos_eq_zero (by rw [ho]; rfl), h.blkcnt (by rw [ho]; decide) (by rw [ho]; decide)⟩
  by_cases hs : f.status = Status.timeout.code
  · rw [takeResponse_timeout s hs]
    exact ⟨⟨.of_control .., rfl, fun h => h.enter (zero h).1 (zero h).2 rfl⟩, rfl, rfl⟩
  · cases hl : f.last with
    | false =>
      rw [takeResponse_byte s hs hl]
      exact ⟨.of_update .., rfl, rfl⟩
    | true =>
      rw [takeResponse_last s hs hl]
      simp only
      split_ifs <;>
        exact ⟨⟨.of_control .., rfl, fun h => h.enter (zero h).1 (zero h).2 rfl⟩, rfl, rfl⟩

theorem checkerTake_move (b : Byte) (s : State) : ControlMove s (checkerTake b s) :=
  ⟨by constructor <;> simp, by simp, fun h => h.congr (by simp) (by simp) (by simp) (by simp)⟩

theorem takeBlockByte_move {f : Frame} {s : State} (ho : s.ostate = .recvData) :
    ControlMove s (takeBlockByte f s) ∧ (takeBlockByte f s).downq = s.downq ∧
      (takeBlockByte f s).upq = s.upq := by
  by_cases hs : f.status = Status.timeout.code
  · rw [takeBlockByte_timeout s hs]
    exact ⟨⟨.of_control .., rfl,
      fun h => h.enter (h.pos_eq_zero (by rw [ho]; rfl)) rfl rfl⟩, rfl, rfl⟩
  · obtain ⟨u, hu, hm, hou, hd, hq⟩ : ∃ u,
        u = (if f.status = Status.ok.code then checkerTake f.data s else s) ∧ ControlMove s u ∧
        u.ostate = .recvData ∧ u.downq = s.downq ∧ u.upq = s.upq := by
      refine ⟨_, rfl, ?_⟩
      split_ifs
      · exact ⟨checkerTake_move _ s, by simp [ho], by simp, by simp⟩
      · exact ⟨.refl s, ho, rfl, rfl⟩
    have hb := hm.trans (endBlock_move (.inl hou))
    cases hl : f.last with
    | true =>
      rw [takeBlockByte_last s hs hl, ← hu]
      simp only
      split_ifs
      · exact ⟨hb, by simp [hd], by simp [hq]⟩
      · exact ⟨hb.trans (.of_update ..),
          by simp [hd], by simp [hq]⟩
    | false =>
      have : takeBlockByte f s = u := by
        rw [hu]
        split_ifs with hok
        · exact takeBlockByte_ok s hok hl
        · exact takeBlockByte_other s hs hok hl
      rw [this]
      exact ⟨hm, hd, hq⟩

theorem inspectAck_move (f : Frame) (s : State) :
    ControlMove s (inspectAck f s) ∧ (inspectAck f s).downq = s.downq ∧ (inspectAck f s).upq = s.upq := by
  unfold inspectAck
  split_ifs
  · exact ⟨.refl s, rfl, rfl⟩
  · exact ⟨.of_update .., rfl, rfl⟩

/-- The consumer port: at most one pop of `UPQ`, and nothing else that another side sees (R170 (c)). -/
theorem consume_move {s t : State} (e : consume s = .next t) :
    ControlMove s t ∧ t.downq = s.downq ∧ s.upq.ConsumerStep t.upq := by
  have pop : ControlMove s { s with upq := s.upq.pop } :=
    .of_update ..
  rw [consume_eq] at e
  split at e
  · cases e; exact ⟨.refl s, rfl, .inl rfl⟩
  · rename_i f hf
    rcases consumeUp_eq_next e with rfl | ⟨hg, ⟨_, _, rfl⟩ | ⟨ho, rfl⟩ | ⟨ho, _, rfl⟩ | ⟨_, rfl⟩⟩
    · exact ⟨.refl _, rfl, .inl rfl⟩
    · exact ⟨pop, rfl, .inr ⟨hg, rfl⟩⟩
    · obtain ⟨hm, hd, hq⟩ := takeResponse_move (f := f) (s := { s with upq := s.upq.pop }) ho
      exact ⟨pop.trans hm, hd, .inr ⟨hg, hq⟩⟩
    · obtain ⟨hm, hd, hq⟩ := takeBlockByte_move (f := f) (s := { s with upq := s.upq.pop }) ho
      exact ⟨pop.trans hm, hd, .inr ⟨hg, hq⟩⟩
    · obtain ⟨hm, hd, hq⟩ := inspectAck_move f { s with upq := s.upq.pop }
      exact ⟨pop.trans hm, hd, .inr ⟨hg, hq⟩⟩

/-! The host's part and the whole tick. -/

theorem HostWrote.move {s t : State} (h : HostWrote s t) :
    ControlMove s t ∧ t.downq = s.downq ∧ t.upq = s.upq := by
  obtain ⟨_, _, _, rfl⟩ := h
  exact ⟨.of_update .., rfl, rfl⟩

theorem HostWrote.ostate_eq {s t : State} (h : HostWrote s t) : t.ostate = s.ostate := by
  obtain ⟨_, _, _, rfl⟩ := h; rfl

/-- A trigger serviced in IDLE starts a unit at its first byte, with no reserved field latched (R143 to
R147). -/
theorem serviceTrigger_move {tr : Trigger} {s t : State} (ho : s.ostate = .idle)
    (e : serviceTrigger tr s = .next t) : ControlMove s t ∧ t.downq = s.downq ∧ t.upq = s.upq := by
  rcases serviceTrigger_eq_next e with ⟨_, e⟩ | ⟨f, rfl⟩
  · obtain ⟨hk, hd, rfl⟩ := issueCommand_eq_next e
    exact ⟨⟨.of_control .., rfl,
      fun _ => ⟨Nat.zero_le _, fun _ _ => rfl, hk, hd⟩⟩, rfl, rfl⟩
  · exact ⟨⟨.of_control .., rfl, fun h => h.enter rfl
      (h.blkcnt (by rw [ho]; decide) (by rw [ho]; decide)) rfl⟩, rfl, rfl⟩

theorem idleStep_move {s t : State} (ho : s.ostate = .idle) (e : idleStep s = .next t) :
    ControlMove s t ∧ t.downq = s.downq ∧ t.upq = s.upq := by
  rcases idleStep_cases e with h | ⟨u, v, tr, hu, hv, ht⟩
  · exact h.move
  · obtain ⟨hum, hud, huq⟩ := hu.move
    obtain ⟨hvm, hvd, hvq⟩ := serviceTrigger_move (hu.ostate_eq.trans ho) hv
    obtain ⟨htm, htd, htq⟩ := ht.move
    exact ⟨(hum.trans hvm).trans htm, htd.trans (hvd.trans hud), htq.trans (hvq.trans huq)⟩

/-- The orchestrator's own step: each port moves its own queue only (R170). -/
theorem orchTick_move {s t : State} (e : orchTick s = .next t) :
    ControlMove s t ∧ s.downq.ProducerStep t.downq ∧ s.upq.ConsumerStep t.upq := by
  by_cases h0 : s.ostate = .idle
  · rw [orchTick_idle h0] at e
    obtain ⟨hm, hd, hq⟩ := consume_move e
    exact ⟨hm, .inl hd, hq⟩
  · by_cases hr : s.ostate = .recvResp ∨ s.ostate = .recvData
    · rw [orchTick_receiving hr] at e
      obtain ⟨u, hu, e⟩ := andThen_eq_next.mp e
      obtain ⟨hm, hq, hd⟩ := emit_move hu
      obtain ⟨hm', hd', hq'⟩ := consume_move e
      exact ⟨hm.trans hm', by rw [hd']; exact hd, by rw [← hq]; exact hq'⟩
    · rw [orchTick_sending h0 (fun h => hr (.inl h)) (fun h => hr (.inr h))] at e
      obtain ⟨u, hu, e⟩ := andThen_eq_next.mp e
      obtain ⟨hm, hd, hq⟩ := consume_move hu
      obtain ⟨hm', hq', hd'⟩ := emit_move e
      exact ⟨hm.trans hm', by rw [← hd]; exact hd', by rw [hq']; exact hq⟩

/-- A control tick leaves the bus side alone, pushes at most one frame into `DOWNQ` and pops at most one of
`UPQ` (R20, R320). -/
theorem controlStep_move {s t : State} (e : controlStep s = .next t) :
    ControlMove s t ∧ s.downq.ProducerStep t.downq ∧ s.upq.ConsumerStep t.upq := by
  rcases controlStep_cases e with ⟨ho, u, rfl | ⟨hf, rfl⟩, hi⟩ | ⟨_, u, hu, ht⟩
  · obtain ⟨hm, hd, hq⟩ := idleStep_move ho hi
    exact ⟨hm, .inl hd, .inl hq⟩
  · obtain ⟨hm, hd, hq⟩ := idleStep_move (s := { s with upq := s.upq.pop }) ho hi
    have pop : ControlMove s { s with upq := s.upq.pop } :=
      .of_update ..
    exact ⟨pop.trans hm, .inl hd, .inr ⟨hf, hq⟩⟩
  · obtain ⟨hm, hd, hq⟩ := orchTick_move hu
    obtain ⟨hm', hd', hq'⟩ := ht.move
    exact ⟨hm.trans hm', by rw [hd']; exact hd, by rw [hq']; exact hq⟩

/-! The control side never faults. -/

theorem cmdByte_isSome (c : Config) (d : Descriptor) {p : Nat} (hp : p ≤ 5) :
    ∃ b, cmdByte c d p = some b := by
  interval_cases p <;> exact ⟨_, rfl⟩

theorem streamField_next {f : CfgField} {s : State} (h : SequenceOk s) (ho : s.ostate = f.state) :
    ∃ t, streamField f s = .next t := by
  have hp := h.pos
  have hm := maxPos_fieldState f
  rw [ho] at hp
  obtain ⟨fr, hfr⟩ := fieldFrame_isSome s.cfg s.host (f := f) (k := s.pos.toNat) (by omega)
  unfold streamField
  simp only [hfr]
  split_ifs <;> exact ⟨_, rfl⟩

theorem sendCommand_next {s : State} (h : SequenceOk s) (ho : s.ostate = .sendCmd) :
    ∃ t, sendCommand s = .next t := by
  have hp : s.pos.toNat ≤ 5 := by simpa [ho, maxPos] using h.pos
  obtain ⟨b, hb⟩ := cmdByte_isSome s.cfg s.desc hp
  unfold sendCommand commandFrame
  simp only [hb, Option.map_some]
  split_ifs <;> exact ⟨_, rfl⟩

/-- The producer port always has its frame: no byte index is past its unit (R37, R172, R109). -/
theorem emit_next {s : State} (h : SequenceOk s) : ∃ t, emit s = .next t := by
  unfold emit
  split <;> rename_i ho
  · exact ⟨_, rfl⟩
  · exact streamField_next (f := .cmdtimeout) h ho
  · exact streamField_next (f := .datatimeout) h ho
  · exact streamField_next (f := .blocksize) h ho
  · exact streamField_next (f := .voltage) h ho
  · exact sendCommand_next h ho
  · exact ⟨_, rfl⟩
  · exact ⟨_, rfl⟩
  · exact ⟨_, rfl⟩

/-- The consumer port pops only a head it sees (R323). -/
theorem consume_next (s : State) : ∃ t, consume s = .next t := by
  rw [consume_eq]
  cases hf : s.upq.head? with
  | none => exact ⟨_, rfl⟩
  | some f =>
    simp only
    unfold consumeUp
    rw [popUp_of_head hf]
    cases s.ostate with
    | idle => cases s.cfg.uqIdlePolicy <;> exact ⟨_, rfl⟩
    | recvData => cases blockReady f s <;> exact ⟨_, rfl⟩
    | cfgTimeoutData => exact ⟨_, rfl⟩
    | cfgTimeoutCmd => exact ⟨_, rfl⟩
    | cfgBlksize => exact ⟨_, rfl⟩
    | cfgVoltage => exact ⟨_, rfl⟩
    | sendCmd => exact ⟨_, rfl⟩
    | recvResp => exact ⟨_, rfl⟩
    | sendData => exact ⟨_, rfl⟩

theorem orchTick_next {s : State} (h : SequenceOk s) : ∃ t, orchTick s = .next t := by
  by_cases h0 : s.ostate = .idle
  · rw [orchTick_idle h0]
    exact consume_next s
  · by_cases hr : s.ostate = .recvResp ∨ s.ostate = .recvData
    · obtain ⟨u, hu⟩ := emit_next h
      rw [orchTick_receiving hr, hu]
      exact consume_next u
    · obtain ⟨u, hu⟩ := consume_next s
      rw [orchTick_sending h0 (fun h => hr (.inl h)) (fun h => hr (.inr h)), hu]
      exact emit_next ((consume_move hu).1.sequence h)

theorem serviceTrigger_ne_fault (tr : Trigger) (s : State) (r : Fault) :
    serviceTrigger tr s ≠ .fault r := by
  cases tr with
  | command =>
    show issueCommand s ≠ .fault r
    unfold issueCommand
    simp only
    split_ifs <;> exact nofun
  | cmdtimeout => exact nofun
  | datatimeout => exact nofun
  | voltage => exact nofun
  | blocksize => exact nofun

theorem hostTrigger_ne_fault (tr : Trigger) (s : State) (r : Fault) : hostTrigger tr s ≠ .fault r := by
  unfold hostTrigger
  split_ifs
  · exact serviceTrigger_ne_fault tr s r
  · split <;> exact nofun

/-- A host access is refused at most; it never faults (R153). -/
theorem hostPart_ne_fault (s : State) (r : Fault) : hostPart s ≠ .fault r := by
  unfold hostPart
  cases s.cin.host with
  | none => exact nofun
  | some a =>
    cases hd : decodeHost a with
    | error x => simp only [hd]; exact nofun
    | ok i =>
      simp only [hd]
      unfold decodeHost at hd
      split at hd
      · cases hd; exact nofun
      · cases hd; exact hostTrigger_ne_fault _ _ r
      · cases hd; exact hostTrigger_ne_fault _ _ r
      · cases hd; exact hostTrigger_ne_fault _ _ r
      · cases hd; exact hostTrigger_ne_fault _ _ r
      · cases hd; exact hostTrigger_ne_fault _ _ r
      · cases hd; exact nofun
      · cases hd; exact nofun
      · cases hd; exact nofun
      · cases hd; exact nofun
      · split at hd <;> cases hd

theorem idleStep_ne_fault (s : State) (r : Fault) : idleStep s ≠ .fault r := by
  unfold idleStep
  rw [Ne, andThen_eq_fault]
  rintro (h | ⟨sh, _, h⟩)
  · exact hostPart_ne_fault s r h
  · split at h
    · rcases andThen_eq_fault.mp h with h | ⟨_, _, h⟩
      · unfold servicePending at h
        split at h
        · cases h
        · exact serviceTrigger_ne_fault _ _ r h
      · cases h
    · cases h

/-- A control tick never faults (R12, R37). -/
theorem controlStep_ne_fault {s : State} (h : SequenceOk s) (r : Fault) : controlStep s ≠ .fault r := by
  obtain ⟨u, hu⟩ := orchTick_next h
  by_cases ho : s.ostate = .idle
  · rw [controlStep_idle ho, hu]
    exact idleStep_ne_fault u r
  · rw [controlStep_busy ho, hu, Ne, andThen_eq_fault]
    rintro (h | ⟨sh, _, h⟩)
    · exact hostPart_ne_fault s r h
    · cases h

end Sys2Proof.Machine
end

section
/-! PROOFS. The bus side of one tick: what the machines do to the queues and leave to the control side (R20,
R322, R323), that the framer's and DATAPATH's part of the invariant is kept (R239, R241, R245, R254, R257,
R262, R265), and that no bus tick stops. -/

namespace Sys2Proof.Machine

/-! The visible head of `DOWNQ` and its tag (R92, R112). -/

theorem HeadIs.congr {ch : Channel} {dir : Direction} {s t : State} (h : HeadIs ch dir s)
    (hh : ∀ f, s.downq.head? = some f → t.downq.head? = some f) (hc : t.cfg = s.cfg) :
    HeadIs ch dir t := by
  obtain ⟨f, hf, ht⟩ := h
  exact ⟨f, hh f hf, by rw [hc]; exact ht⟩

/-- A frame tagged XFER has the XFER mode, with an injective encoding (D3). -/
theorem mode?_of_xferTag {e : ModeEncoding} (hi : e.injective = true) {f : Frame} {ch : Channel}
    {dir : Direction} (ht : f.ctrl = tag e ch dir .xfer) : e.mode? f.modeBits = some .xfer := by
  have : f.modeBits = e.code .xfer := by
    obtain ⟨d, c, l⟩ := f
    simp only at ht
    rw [ht, modeBits_tag]
  rw [this, ModeEncoding.mode?_code hi]

/-- A visible frame of the XFER mode is one of its own channel and direction (R94). -/
theorem headIs_of_mode {s : State} {f : Frame} (hf : s.downq.head? = some f)
    (hm : s.cfg.modes.mode? f.modeBits = some .xfer) :
    HeadIs (channelOf (f.ctrl.getLsbD 0)) (directionOf (f.ctrl.getLsbD 1)) s :=
  ⟨f, hf, (congrArg Frame.ctrl (xferFrame_self hm)).symm⟩

/-- The channel of the visible head is a bit of its tag, so a head has one channel only. -/
theorem HeadIs.channel_eq {ch ch' : Channel} {dir dir' : Direction} {s : State} (h : HeadIs ch dir s)
    (h' : HeadIs ch' dir' s) : ch = ch' := by
  obtain ⟨f, hf, ht⟩ := h
  obtain ⟨g, hg, ht'⟩ := h'
  obtain rfl : f = g := Option.some.inj (hf.symm.trans hg)
  have hb : (ch == .data) = (ch' == .data) := by
    rw [← tag_channel s.cfg.modes ch dir .xfer, ← tag_channel s.cfg.modes ch' dir' .xfer, ← ht, ← ht']
  revert hb
  cases ch <;> cases ch' <;> decide

/-! The framer's invariant by which machine is out of IDLE. -/

theorem FramerOk.congr {s t : State} (h : FramerOk s)
    (hh : ∀ f, s.downq.head? = some f → t.downq.head? = some f) (hc : t.cfg = s.cfg)
    (hf : t.fcfg = s.fcfg) (hw : t.writer = s.writer) (hr : t.reader = s.reader)
    (hx : t.sampler = s.sampler) : FramerOk t where
  exclusion := by rw [hw, hr]; exact h.exclusion
  writerHead := by rw [hw]; exact fun hs => (h.writerHead hs).congr hh hc
  readerHead := by rw [hr]; exact fun hs => (h.readerHead hs).congr hh hc
  initCount := by rw [hw]; exact h.initCount
  clk8Count := by rw [hw]; exact h.clk8Count
  initDone := by rw [hw]; exact h.initDone
  timeout := by rw [hr, hf]; exact h.timeout
  startBit := by rw [hr, hx]; exact h.startBit
  sampling := by rw [hr, hx]; exact h.sampling

/-- The reader IDLE: only the writer's part is left to show. -/
theorem FramerOk.of_reader_idle {t : State} (hr : t.reader.st = .idle)
    (writerHead : t.writer.st.holdsHead = true → HeadIs .cmd .write t)
    (initCount : t.writer.st = .init → t.writer.cnt.toNat ≤ 79)
    (clk8Count : t.writer.st = .cmdClk8 → t.writer.cnt.toNat ≤ 7)
    (initDone : t.writer.st = .cmdWrite ∨ t.writer.st = .cmdClk8 → t.writer.initDone = true) :
    FramerOk t where
  exclusion := .inr hr
  writerHead := writerHead
  readerHead := by rw [hr]; exact nofun
  initCount := initCount
  clk8Count := clk8Count
  initDone := initDone
  timeout := by rw [hr]; exact nofun
  startBit := by rw [hr]; exact nofun
  sampling := by rw [hr]; exact nofun

/-- The writer IDLE: only the reader's part is left to show. -/
theorem FramerOk.of_writer_idle {t : State} (hw : t.writer.st = .idle)
    (readerHead : t.reader.st.holdsHead = true → HeadIs .cmd .read t)
    (timeout : t.reader.st = .cmdReadstart → t.reader.timeout ≤ t.fcfg.cmdtimeout)
    (startBit : t.reader.st = .cmdReadstart → t.sampler.st = .read → t.sampler.cnt = 1)
    (sampling : t.reader.st = .cmdRead → t.sampler.st = .read) : FramerOk t where
  exclusion := .inl hw
  writerHead := by rw [hw]; exact nofun
  readerHead := readerHead
  initCount := by rw [hw]; exact nofun
  clk8Count := by rw [hw]; exact nofun
  initDone := by rw [hw]; rintro (h | h) <;> cases h
  timeout := timeout
  startBit := startBit
  sampling := sampling

/-- The writer IDLE and the reader in a state that holds no frame. -/
theorem FramerOk.of_free_reader {t : State} (hw : t.writer.st = .idle)
    (hr : t.reader.st.holdsHead = false) : FramerOk t := by
  have hstart : t.reader.st ≠ .cmdReadstart := by intro h; rw [h] at hr; cases hr
  have hread : t.reader.st ≠ .cmdRead := by intro h; rw [h] at hr; cases hr
  exact .of_writer_idle hw (by rw [hr]; exact nofun) (fun h => absurd h hstart)
    (fun h => absurd h hstart) (fun h => absurd h hread)

/-- Neither machine holds a frame at the head (R257). -/
def HoldsNone (s : State) : Prop := s.writer.st.holdsHead = false ∧ s.reader.st.holdsHead = false

/-- With no frame held, the head and the Configuration copy may change under the machines. -/
theorem FramerOk.of_holdsNone {s t : State} (h : FramerOk s) (hn : HoldsNone s)
    (hw : t.writer = s.writer) (hr : t.reader = s.reader) : FramerOk t := by
  rcases h.exclusion with hi | hi
  · exact .of_free_reader (by rw [hw]; exact hi) (by rw [hr]; exact hn.2)
  · refine .of_reader_idle (by rw [hr]; exact hi) ?_ ?_ ?_ ?_ <;> rw [hw]
    · rw [hn.1]; exact nofun
    · exact h.initCount
    · exact h.clk8Count
    · exact h.initDone

/-- A head that is no XFER frame is held by no machine (R257). -/
theorem holdsNone_of_mode {s : State} {f : Frame} (h : FramerOk s) (hi : s.cfg.modes.injective = true)
    (hf : s.downq.head? = some f) (hm : s.cfg.modes.mode? f.modeBits ≠ some .xfer) : HoldsNone s := by
  have no : ∀ ch dir, ¬HeadIs ch dir s := by
    rintro ch dir ⟨g, hg, ht⟩
    obtain rfl : f = g := Option.some.inj (hf.symm.trans hg)
    exact hm (mode?_of_xferTag hi ht)
  exact ⟨Bool.eq_false_iff.mpr fun hw => no _ _ (h.writerHead hw),
    Bool.eq_false_iff.mpr fun hr => no _ _ (h.readerHead hr)⟩

/-! The sampler (R251 to R253). -/

theorem Sampler.sample_read {x : Sampler} (b : Bool) (h : x.st = .read) : (x.sample b).1.st = .read := by
  unfold Sampler.sample
  rw [h]
  simp only
  split_ifs <;> rfl

/-- The sampler enters READ with the start bit counted. -/
theorem Sampler.sample_enters_read {x : Sampler} {b : Bool} (h : x.st ≠ .read)
    (h' : (x.sample b).1.st = .read) : (x.sample b).1.cnt = 1 := by
  unfold Sampler.sample at h' ⊢
  cases hx : x.st with
  | idle => simp only [hx] at h'; cases h'
  | read => exact absurd hx h
  | readstart =>
    simp only [hx] at h' ⊢
    split_ifs at h' ⊢
    · exact absurd h' h
    · rfl

/-! One tick of the machines. -/

/-- `dat_o` has its `DATA_WIDTH` lines whenever it is driven (R45). -/
def LinesOk (s : State) : Prop := ∀ l, s.pads.dat = some l → l.length = s.cfg.dataWidth

/-- What the writer and the reader leave alone in one tick, and what they do to the queues (R20, R320). -/
structure MachinesMove (s t : State) : Prop where
  control : SameControl s t
  cfg : t.cfg = s.cfg
  fcfg : t.fcfg = s.fcfg
  datapath : t.datapath = s.datapath
  downq : s.downq.ConsumerStep t.downq
  upq : s.upq.ProducerStep t.upq
  lines : LinesOk t

theorem SameControl.trans {s t u : State} (h : SameControl s t) (h' : SameControl t u) :
    SameControl s u :=
  ⟨h'.host.trans h.host, h'.pending.trans h.pending, h'.desc.trans h.desc,
    h'.response.trans h.response, h'.cmdf.trans h.cmdf, h'.dataf.trans h.dataf,
    h'.ostate.trans h.ostate, h'.pos.trans h.pos, h'.reqSent.trans h.reqSent,
    h'.blkcnt.trans h.blkcnt, h'.gen.trans h.gen, h'.chk.trans h.chk, h'.out.trans h.out,
    h'.cin.trans h.cin⟩

/-- A tick of the bus side moves these fields only. -/
theorem SameControl.of_bus (s : State) (dq uq : Queue) (fc : FramerRegs) (w : Writer) (r : Reader)
    (x : Sampler) (d : Datapath) (p : Pads) :
    SameControl s { s with
      downq := dq, upq := uq, fcfg := fc, writer := w, reader := r, sampler := x, datapath := d
      pads := p } :=
  ⟨rfl, rfl, rfl, rfl, rfl, rfl, rfl, rfl, rfl, rfl, rfl, rfl, rfl, rfl⟩

/-- The machines' tick, given what it did to the queues and the pads. -/
theorem MachinesMove.of_update {s : State} {dq uq : Queue} (w : Writer) (r : Reader) (x : Sampler)
    {p : Pads} (hd : s.downq.ConsumerStep dq) (hu : s.upq.ProducerStep uq)
    (hl : ∀ l, p.dat = some l → l.length = s.cfg.dataWidth) :
    MachinesMove s { s with
      downq := dq, upq := uq, writer := w, reader := r, sampler := x, pads := p } :=
  ⟨.of_bus s .., rfl, rfl, rfl, hd, hu, hl⟩

theorem writerTick_move {h : Option Frame} {s t : State} (hw : s.writer.st ≠ .idle)
    (e : writerTick h s = .next t) : MachinesMove s t := by
  rcases writerTick_eq_next hw e with ⟨_, rfl⟩ | ⟨_, rfl⟩ | ⟨_, _, f, _, rfl⟩ | ⟨_, _, hg, f, _, rfl⟩
  · exact .of_update _ _ _ (.inl rfl) (.inl rfl) (by rintro l ⟨⟩; simp)
  · exact .of_update _ _ _ (.inl rfl) (.inl rfl) nofun
  · exact .of_update _ _ _ (.inl rfl) (.inl rfl) nofun
  · exact .of_update _ _ _ (.inr ⟨hg, rfl⟩) (.inl rfl) nofun

theorem readerTick_move {s t : State} (e : readerTick s = .next t) : MachinesMove s t := by
  rcases readerTick_eq_next e with ⟨_, rfl⟩ | ⟨_, rfl⟩ | ⟨_, _, rfl⟩ | ⟨_, _, _, rfl⟩ |
    ⟨_, hr, b, _, e⟩ | ⟨_, rfl⟩ | ⟨_, _, rfl⟩ | ⟨_, hr, hg, rfl⟩
  · exact .of_update _ _ _ (.inl rfl) (.inl rfl) nofun
  · exact .of_update _ _ _ (.inl rfl) (.inl rfl) nofun
  · exact .of_update _ _ _ (.inl rfl) (.inl rfl) nofun
  · exact .of_update _ _ _ (.inl rfl) (.inl rfl) nofun
  · rcases forwardByte_eq_next e with ⟨_, rfl⟩ | ⟨_, hg, rfl⟩
    · exact .of_update _ _ _ (.inl rfl) (.inr ⟨hr, _, rfl⟩) nofun
    · exact .of_update _ _ _ (.inr ⟨hg, rfl⟩) (.inr ⟨hr, _, rfl⟩) nofun
  · exact .of_update _ _ _ (.inl rfl) (.inl rfl) nofun
  · exact .of_update _ _ _ (.inl rfl) (.inl rfl) nofun
  · exact .of_update _ _ _ (.inr ⟨hg, rfl⟩) (.inr ⟨hr, _, rfl⟩) nofun

theorem machinesTick_move {h : Option Frame} {s t : State} (e : machinesTick h s = .next t) :
    MachinesMove s t := by
  rcases machinesTick_eq_next e with ⟨_, e⟩ | ⟨hw, _, e⟩
  · exact readerTick_move e
  · exact writerTick_move hw e

theorem WState.eq_of_holdsHead {w : WState} (h : w.holdsHead = false) : w = .idle ∨ w = .cmdClk8 := by
  revert h
  cases w <;> decide

theorem RState.eq_of_holdsHead {r : RState} (h : r.holdsHead = false) : r = .idle ∨ r = .cmdClk8 := by
  revert h
  cases r <;> decide

theorem Writer.clk8Tick_holdsHead {w : Writer} (h : w.st.holdsHead = false) :
    w.clk8Tick.st.holdsHead = false := by
  unfold Writer.clk8Tick
  split_ifs
  · rfl
  · exact h

theorem Reader.clk8Tick_holdsHead {r : Reader} (h : r.st.holdsHead = false) :
    r.clk8Tick.st.holdsHead = false := by
  unfold Reader.clk8Tick
  split_ifs
  · rfl
  · exact h

/-- A tick in which no machine holds a frame touches no queue, and none holds one after it (R241, R247). -/
theorem machinesTick_holdsNone {h : Option Frame} {s t : State} (hn : HoldsNone s)
    (e : machinesTick h s = .next t) : t.downq = s.downq ∧ t.upq = s.upq ∧ HoldsNone t := by
  obtain ⟨hw, hr⟩ := hn
  rcases machinesTick_eq_next e with ⟨hi, er⟩ | ⟨hi, _, ew⟩
  · rcases RState.eq_of_holdsHead hr with hri | hrc
    · rw [machinesTick_idle h hi hri] at e
      cases e
      exact ⟨rfl, rfl, hw, hr⟩
    · rw [readerTick_clk8 hrc] at er
      cases er
      exact ⟨rfl, rfl, hw, Reader.clk8Tick_holdsHead hr⟩
  · rw [writerTick_clk8 h ((WState.eq_of_holdsHead hw).resolve_left hi)] at ew
    cases ew
    exact ⟨rfl, rfl, Writer.clk8Tick_holdsHead hw, hr⟩

/-! The machines keep the framer's invariant. -/

/-- The preamble ends in CMD_WRITE with the init flag set, or counts on (R239). -/
theorem Writer.initTick_cases (w : Writer) (h : w.cnt.toNat ≤ 79) :
    w.initTick = { st := .cmdWrite, initDone := true, cnt := 0, bit := 0 } ∨
    (w.initTick = { w with cnt := w.cnt + 1 } ∧ (w.cnt + 1).toNat = w.cnt.toNat + 1 ∧
      w.cnt.toNat + 1 ≤ 79) := by
  unfold Writer.initTick
  split_ifs with hc
  · exact .inl rfl
  · have : w.cnt.toNat ≠ 79 := fun h => hc (BitVec.eq_of_toNat_eq h)
    exact .inr ⟨rfl, by rw [BitVec.toNat_add]; exact Nat.mod_eq_of_lt (by show w.cnt.toNat + 1 < _; omega),
      by omega⟩

/-- The trailing clocks end in IDLE, or count on (R241). -/
theorem Writer.clk8Tick_cases (w : Writer) (h : w.cnt.toNat ≤ 7) :
    w.clk8Tick = { w with st := .idle, cnt := 0 } ∨
    (w.clk8Tick = { w with cnt := w.cnt + 1 } ∧ (w.cnt + 1).toNat = w.cnt.toNat + 1 ∧
      w.cnt.toNat + 1 ≤ 7) := by
  unfold Writer.clk8Tick
  split_ifs with hc
  · exact .inl rfl
  · have : w.cnt.toNat ≠ 7 := fun h => hc (BitVec.eq_of_toNat_eq h)
    exact .inr ⟨rfl, by rw [BitVec.toNat_add]; exact Nat.mod_eq_of_lt (by show w.cnt.toNat + 1 < _; omega),
      by omega⟩

/-- The eighth bit ends in the trailing clocks, counted from 0, or in IDLE (R240). -/
theorem Writer.byteDone_cases (w : Writer) (last : Bool) :
    w.byteDone last = { w with st := .cmdClk8, bit := 0, cnt := 0 } ∨
    w.byteDone last = { w with st := .idle, bit := 0 } := by
  cases last with
  | true => exact .inl rfl
  | false => exact .inr rfl

/-- Waiting for the start bit (R245): the start bit is seen, the time is over, or the count goes on. -/
theorem Reader.waitTick_cases (threshold : BitVec 32) (x : Sampler) (r : Reader) :
    (x.st = .read ∧ r.waitTick threshold x = { r with st := .cmdRead }) ∨
    (x.st ≠ .read ∧ r.waitTick threshold x = { r with st := .timeout }) ∨
    (x.st ≠ .read ∧ r.waitTick threshold x = { r with timeout := r.timeout + 1 } ∧
      (r.timeout + 1).toNat = r.timeout.toNat + 1 ∧ r.timeout + 1 ≤ threshold) := by
  unfold Reader.waitTick
  split_ifs with hx ht
  · exact .inl ⟨hx, rfl⟩
  · exact .inr (.inl ⟨hx, rfl⟩)
  · exact .inr (.inr ⟨hx, rfl, by bv_omega, by bv_omega⟩)

theorem writerTick_framerOk {h : Option Frame} {s t : State} (hF : FramerOk s)
    (hw : s.writer.st ≠ .idle) (hr : s.reader.st = .idle) (e : writerTick h s = .next t) :
    FramerOk t := by
  rcases writerTick_eq_next hw e with ⟨hst, rfl⟩ | ⟨hst, rfl⟩ | ⟨hst, _, f, _, rfl⟩ |
    ⟨hst, _, _, f, _, rfl⟩
  · have hh : HeadIs .cmd .write s := hF.writerHead (by rw [hst]; rfl)
    rcases s.writer.initTick_cases (hF.initCount hst) with hi | ⟨hi, hc, hb⟩
    · refine .of_reader_idle hr (fun _ => hh) ?_ ?_ ?_ <;> simp only [hi]
      · exact nofun
      · exact nofun
      · exact fun _ => trivial
    · refine .of_reader_idle hr (fun _ => hh) ?_ ?_ ?_ <;> simp only [hi, hst]
      · exact fun _ => hc.trans_le hb
      · exact nofun
      · rintro (h | h) <;> cases h
  · have hd := hF.initDone (.inr hst)
    rcases s.writer.clk8Tick_cases (hF.clk8Count hst) with hi | ⟨hi, hc, hb⟩
    · refine .of_reader_idle hr ?_ ?_ ?_ ?_ <;> simp only [hi]
      · exact nofun
      · exact nofun
      · exact nofun
      · rintro (h | h) <;> cases h
    · refine .of_reader_idle hr ?_ ?_ ?_ ?_ <;> simp only [hi, hst]
      · exact nofun
      · exact nofun
      · exact fun _ => hc.trans_le hb
      · exact fun _ => hd
  · refine .of_reader_idle hr (fun _ => hF.writerHead (by rw [hst]; rfl)) ?_ ?_ ?_ <;> simp only [hst]
    · exact nofun
    · exact nofun
    · exact fun _ => hF.initDone (.inl hst)
  · have hd := hF.initDone (.inl hst)
    rcases s.writer.byteDone_cases f.last with hi | hi
    · refine .of_reader_idle hr ?_ ?_ ?_ ?_ <;> simp only [hi]
      · exact nofun
      · exact nofun
      · exact fun _ => Nat.zero_le _
      · exact fun _ => hd
    · refine .of_reader_idle hr ?_ ?_ ?_ ?_ <;> simp only [hi]
      · exact nofun
      · exact nofun
      · exact nofun
      · rintro (h | h) <;> cases h

theorem readerTick_framerOk {s t : State} (hF : FramerOk s) (hw : s.writer.st = .idle)
    (e : readerTick s = .next t) : FramerOk t := by
  rcases readerTick_eq_next e with ⟨hst, rfl⟩ | ⟨hst, rfl⟩ | ⟨hst, _, rfl⟩ | ⟨hst, _, _, rfl⟩ |
    ⟨hst, _, b, _, e⟩ | ⟨hst, rfl⟩ | ⟨hst, _, rfl⟩ | ⟨hst, _, _, rfl⟩
  · exact .of_free_reader hw (by simp only [idleTick_reader, hst]; rfl)
  · have hh : HeadIs .cmd .read s := hF.readerHead (by rw [hst]; rfl)
    rcases s.reader.waitTick_cases s.fcfg.cmdtimeout s.sampler with ⟨hx, hi⟩ | ⟨hx, hi⟩ | ⟨hx, hi, _, hle⟩
    · refine .of_writer_idle hw (fun _ => hh) ?_ ?_ ?_ <;> simp only [hi]
      · exact nofun
      · exact nofun
      · exact fun _ => Sampler.sample_read _ hx
    · refine .of_writer_idle hw (fun _ => hh) ?_ ?_ ?_ <;> simp only [hi]
      · exact nofun
      · exact nofun
      · exact nofun
    · refine .of_writer_idle hw (fun _ => hh) ?_ ?_ ?_ <;> simp only [hi, hst]
      · exact fun _ => hle
      · exact fun _ => Sampler.sample_enters_read hx
      · exact nofun
  · exact hF.congr (fun _ h => h) rfl rfl rfl rfl rfl
  · refine .of_writer_idle hw (fun _ => hF.readerHead (by rw [hst]; rfl)) ?_ ?_ ?_ <;> simp only [hst]
    · exact nofun
    · exact nofun
    · exact fun _ => Sampler.sample_read _ (hF.sampling hst)
  · rcases forwardByte_eq_next e with ⟨_, rfl⟩ | ⟨_, _, rfl⟩
    · refine .of_writer_idle hw (fun _ => hF.readerHead (by rw [hst]; rfl)) ?_ ?_ ?_ <;> simp only [hst]
      · exact nofun
      · exact nofun
      · exact fun _ => Sampler.sample_read _ (hF.sampling hst)
    · refine .of_free_reader hw ?_
      simp only
      split_ifs <;> rfl
  · refine .of_free_reader hw ?_
    simp only [Reader.clk8Tick, hst]
    split_ifs <;> rfl
  · refine .of_writer_idle hw (fun _ => hF.readerHead (by rw [hst]; rfl)) ?_ ?_ ?_ <;>
      simp only [idleTick_reader, hst] <;> exact nofun
  · exact .of_free_reader hw rfl

theorem machinesTick_framerOk {h : Option Frame} {s t : State} (hF : FramerOk s)
    (e : machinesTick h s = .next t) : FramerOk t := by
  rcases machinesTick_eq_next e with ⟨hw, e⟩ | ⟨hw, hr, e⟩
  · exact readerTick_framerOk hF hw e
  · exact writerTick_framerOk hF hw hr e

/-! DATAPATH's part (R262, R263, R265). -/

theorem DatapathOk.congr {s t : State} (h : DatapathOk s)
    (hh : ∀ f, s.downq.head? = some f → t.downq.head? = some f) (hc : t.cfg = s.cfg)
    (hf : t.fcfg = s.fcfg) (hw : t.writer = s.writer) (hr : t.reader = s.reader)
    (hd : t.datapath = s.datapath) : DatapathOk t where
  read := by
    rw [hd, hf, bothIdle, hw, hr]
    exact fun hs => let ⟨h1, h2, h3⟩ := h.read hs; ⟨h1, h2.congr hh hc, h3⟩
  write := by
    rw [hd, bothIdle, hw, hr]
    exact fun hs => let ⟨h1, h2⟩ := h.write hs; ⟨h1, h2.congr hh hc⟩

theorem DatapathOk.of_free {t : State} (h : t.datapath = .free) : DatapathOk t :=
  ⟨fun hs => absurd (by rw [h]; rfl) hs, fun hs => by rw [h] at hs; cases hs⟩

/-- DATAPATH counts nothing for a frame it does not own. -/
theorem DatapathOk.free_of_not_owns {s : State} (h : DatapathOk s) (hn : ¬DatapathOwns s) :
    s.datapath = .free := by
  have hs : s.datapath.sent = 0 := by
    by_contra hs
    exact hn ⟨(h.read hs).1, _, (h.read hs).2.1⟩
  have ha : s.datapath.acked = false := by
    by_contra ha
    exact hn ⟨(h.write (by simpa using ha)).1, _, (h.write (by simpa using ha)).2⟩
  show s.datapath = { sent := 0, acked := false }
  rw [← hs, ← ha]

/-- The lines DATAPATH drives are all of them (log entry 6). -/
theorem LinesOk.of_datapathPads {s t : State} (hp : t.pads = datapathPads s) (hc : t.cfg = s.cfg) :
    LinesOk t := by
  intro l h
  rw [hp] at h
  obtain ⟨v, _, rfl⟩ := Option.map_eq_some_iff.mp h
  simp [dataLines, hc]

/-! The whole bus tick. -/

/-- What a bus tick leaves alone, and what it does to the queues (R20, R320). -/
structure BusMove (s t : State) : Prop where
  control : SameControl s t
  cfg : t.cfg = s.cfg
  downq : s.downq.ConsumerStep t.downq
  upq : s.upq.ProducerStep t.upq
  framer : FramerOk t
  datapath : DatapathOk t
  lines : LinesOk t

/-- All a bus tick can do (R223, R256): the machines run, where nothing is visible or they are busy with an
XFER frame; an XFER frame is dispatched; or a configuration or reserved frame is taken beside the machines. -/
theorem busStep_cases {s t : State} (e : busStep s = .next t) :
    (machinesTick s.downq.head? s = .next t ∧
      (s.downq.head? = none ∨ ¬(s.writer.st = .idle ∧ s.reader.st = .idle))) ∨
    (∃ f, s.downq.head? = some f ∧ s.cfg.modes.mode? f.modeBits = some .xfer ∧
      s.writer.st = .idle ∧ s.reader.st = .idle ∧ dispatchXfer f s = .next t) ∨
    (∃ f u r, s.downq.head? = some f ∧ s.cfg.modes.mode? f.modeBits ≠ some .xfer ∧
      machinesTick none s = .next u ∧ (∃ g, u.downq.head? = some g) ∧
      t = { u with downq := u.downq.pop, fcfg := r }) := by
  rw [busStep_eq] at e
  cases hf : s.downq.head? with
  | none => simp only [hf] at e; exact .inl ⟨e, .inl rfl⟩
  | some f =>
    simp only [hf] at e
    split at e
    · rename_i hm
      obtain ⟨u, hu, hg, rfl⟩ := discardTick_eq_next e
      exact .inr (.inr ⟨f, u, u.fcfg, rfl, by rw [hm]; exact nofun, hu, hg, rfl⟩)
    · rename_i hm
      by_cases hi : s.writer.st = .idle ∧ s.reader.st = .idle
      · rw [xferTick_idle f _ hi.1 hi.2] at e
        exact .inr (.inl ⟨f, rfl, hm, hi.1, hi.2, e⟩)
      · rw [xferTick_busy f _ hi] at e
        exact .inl ⟨e, .inr hi⟩
    · rename_i m hx hm
      obtain ⟨u, hu, hg, rfl⟩ := latchTick_eq_next e
      exact .inr (.inr ⟨f, u, _, rfl, by rw [hm]; exact fun h => hx (Option.some.inj h), hu, hg, rfl⟩)

/-- DATAPATH's tick, given what it did to the queues and to its own count (R262 to R265). -/
theorem BusMove.of_datapath {s : State} {dq uq : Queue} {d : Datapath} (hw : s.writer.st = .idle)
    (hr : s.reader.st = .idle) (hd : s.downq.ConsumerStep dq) (hu : s.upq.ProducerStep uq)
    (hD : DatapathOk { s with
      pads := datapathPads s, sampler := .off, downq := dq, upq := uq, datapath := d }) :
    BusMove s { s with
      pads := datapathPads s, sampler := .off, downq := dq, upq := uq, datapath := d } where
  control := .of_bus s ..
  cfg := rfl
  downq := hd
  upq := hu
  framer := .of_free_reader hw (by rw [hr]; rfl)
  datapath := hD
  lines := .of_datapathPads rfl rfl

/-- DATAPATH's tick with a read request (R262). -/
theorem datapathRead_move {s t : State} (hw : s.writer.st = .idle) (hr : s.reader.st = .idle)
    (hh : HeadIs .data .read s) (hD : DatapathOk s) (e : datapathRead s = .next t) : BusMove s t := by
  have hb : bothIdle s = true := (bothIdle_iff s).mpr ⟨hw, hr⟩
  rcases datapathRead_eq_next e with rfl | ⟨hq, b, _, hlt, rfl⟩ | ⟨hq, b, _, _, hg, rfl⟩ | ⟨hq, _, hg, rfl⟩
  · exact .of_datapath hw hr (.inl rfl) (.inl rfl) (hD.congr (fun _ h => h) rfl rfl rfl rfl rfl)
  · exact .of_datapath hw hr (.inl rfl) (.inr ⟨hq, _, rfl⟩) ⟨fun _ => ⟨hb, hh, hlt⟩, hD.write⟩
  · exact .of_datapath hw hr (.inr ⟨hg, rfl⟩) (.inr ⟨hq, _, rfl⟩) (.of_free rfl)
  · exact .of_datapath hw hr (.inr ⟨hg, rfl⟩) (.inr ⟨hq, _, rfl⟩) (.of_free rfl)

/-- DATAPATH's tick with a byte of a write block (R263). -/
theorem datapathWrite_move {last : Bool} {s t : State} (hw : s.writer.st = .idle)
    (hr : s.reader.st = .idle) (hh : HeadIs .data .write s) (hD : DatapathOk s)
    (e : datapathWrite last s = .next t) : BusMove s t := by
  have hb : bothIdle s = true := (bothIdle_iff s).mpr ⟨hw, hr⟩
  rcases datapathWrite_eq_next e with rfl | ⟨_, _, hg, rfl⟩ | ⟨_, _, hq, st, ⟨_, rfl⟩ | ⟨_, hg, rfl⟩⟩
  · exact .of_datapath hw hr (.inl rfl) (.inl rfl) (hD.congr (fun _ h => h) rfl rfl rfl rfl rfl)
  · exact .of_datapath hw hr (.inr ⟨hg, rfl⟩) (.inl rfl) (.of_free rfl)
  · exact .of_datapath hw hr (.inl rfl) (.inr ⟨hq, _, rfl⟩) ⟨hD.read, fun _ => ⟨hb, hh⟩⟩
  · exact .of_datapath hw hr (.inr ⟨hg, rfl⟩) (.inr ⟨hq, _, rfl⟩) (.of_free rfl)

/-- The dispatch of an XFER frame (R223), by its channel and direction. -/
theorem dispatchXfer_move {f : Frame} {s t : State} (hf : s.downq.head? = some f)
    (hm : s.cfg.modes.mode? f.modeBits = some .xfer) (hw : s.writer.st = .idle)
    (hr : s.reader.st = .idle) (hD : DatapathOk s) (e : dispatchXfer f s = .next t) : BusMove s t := by
  have hh := headIs_of_mode hf hm
  have free : channelOf (f.ctrl.getLsbD 0) = .cmd → s.datapath = .free := fun hc =>
    hD.free_of_not_owns (by rintro ⟨_, d, h⟩; rw [hc] at hh; cases hh.channel_eq h)
  unfold dispatchXfer at e
  split at e <;> rename_i h0 h1 <;> rw [h0, h1] at hh
  · cases e
    refine ⟨.of_bus s .., rfl, .inl rfl, .inl rfl, ?_, .of_free (free (by rw [h0]; rfl)), nofun⟩
    refine .of_writer_idle hw (fun _ => hh) ?_ ?_ ?_
    · exact fun _ => by show (0 : BitVec 32) ≤ _; bv_omega
    · exact fun _ => nofun
    · exact nofun
  · exact datapathRead_move hw hr hh hD e
  · cases e
    refine ⟨.of_bus s .., rfl, .inl rfl, .inl rfl, ?_, .of_free (free (by rw [h0]; rfl)), nofun⟩
    cases hi : s.writer.initDone <;> refine .of_reader_idle hr (fun _ => hh) ?_ ?_ ?_ <;>
      simp [Writer.start, hi]
  · exact datapathWrite_move hw hr hh hD e

/-- A bus tick keeps to its side, and keeps the framer's and DATAPATH's part of the invariant. -/
theorem busStep_move {s t : State} (hi : s.cfg.modes.injective = true) (hF : FramerOk s)
    (hD : DatapathOk s) (e : busStep s = .next t) : BusMove s t := by
  rcases busStep_cases e with ⟨e, hb⟩ | ⟨f, hf, hm, hw, hr, e⟩ | ⟨f, u, r, hf, hm, hu, hg, rfl⟩
  · have hM := machinesTick_move e
    refine ⟨hM.control, hM.cfg, hM.downq, hM.upq, machinesTick_framerOk hF e,
      .of_free (hM.datapath.trans (hD.free_of_not_owns ?_)), hM.lines⟩
    rintro ⟨hbi, d, f, hf, _⟩
    rcases hb with hb | hb
    · rw [hf] at hb; cases hb
    · exact hb ((bothIdle_iff s).mp hbi)
  · exact dispatchXfer_move hf hm hw hr hD e
  · have hM := machinesTick_move hu
    have hn := holdsNone_of_mode hF hi hf hm
    obtain ⟨hd, hq, hn'⟩ := machinesTick_holdsNone hn hu
    refine ⟨hM.control.trans (.of_bus u ..), hM.cfg, .inr ⟨⟨f, hf⟩, by rw [← hd]⟩, .inl hq,
      (machinesTick_framerOk hF hu).of_holdsNone hn' rfl rfl,
      .of_free (hM.datapath.trans (hD.free_of_not_owns ?_)), hM.lines⟩
    rintro ⟨_, d, g, hg, ht⟩
    obtain rfl : f = g := Option.some.inj (hf.symm.trans hg)
    exact hm (mode?_of_xferTag hi ht)

/-! No bus tick stops. -/

/-- A pop of a visible head goes on (R323). -/
theorem popDown_andThen_next {s : State} {g : Frame} (hg : s.downq.head? = some g) (f : State → State) :
    ∃ t, (andThen (popDown s) fun u => .next (f u)) = .next t := by
  rw [popDown_of_head hg]
  exact ⟨_, rfl⟩

theorem writerTick_next {h : Option Frame} {s : State} (hF : FramerOk s)
    (hh : s.writer.st = .cmdWrite → ∃ f, h = some f) : ∃ t, writerTick h s = .next t := by
  cases hst : s.writer.st with
  | idle => unfold writerTick; simp only [hst]; exact ⟨_, rfl⟩
  | init => exact ⟨_, writerTick_init h hst⟩
  | cmdClk8 => exact ⟨_, writerTick_clk8 h hst⟩
  | cmdWrite =>
    obtain ⟨f, rfl⟩ := hh hst
    obtain ⟨g, hg, _⟩ := hF.writerHead (by rw [hst]; rfl)
    by_cases hb : s.writer.bit = 7
    · exact ⟨_, writerTick_lastBit f hst hb hg⟩
    · exact ⟨_, writerTick_bit f hst hb⟩

theorem readerTick_next {s : State} (hF : FramerOk s) : ∃ t, readerTick s = .next t := by
  have head : s.reader.st.holdsHead = true → ∃ g, s.downq.head? = some g :=
    fun h => let ⟨g, hg, _⟩ := hF.readerHead h; ⟨g, hg⟩
  cases hst : s.reader.st with
  | idle => exact ⟨_, by unfold readerTick; simp only [hst]; rfl⟩
  | cmdReadstart => exact ⟨_, readerTick_wait hst⟩
  | cmdClk8 => exact ⟨_, readerTick_clk8 hst⟩
  | timeout =>
    obtain ⟨g, hg⟩ := head (by rw [hst]; rfl)
    cases hq : s.upq.ready with
    | false => exact ⟨_, readerTick_timeoutFull hst hq⟩
    | true => exact ⟨_, readerTick_timeout hst hq hg⟩
  | cmdRead =>
    obtain ⟨g, hg⟩ := head (by rw [hst]; rfl)
    cases hq : s.upq.ready with
    | false => exact ⟨_, readerTick_full hst hq⟩
    | true =>
      cases hb : (s.sampler.sample s.bin.cmdI).2 with
      | none => exact ⟨_, readerTick_sample hst hq hb⟩
      | some b =>
        rw [readerTick_byte hst hq hb]
        cases hl : s.reader.lastByte s.cfg with
        | false => exact ⟨_, forwardByte_more b hl⟩
        | true => exact ⟨_, forwardByte_last b hl hg⟩

/-- The machines run when at most one is out of IDLE and a writer that sends sees its frame (R257). -/
theorem machinesTick_next {h : Option Frame} {s : State} (hF : FramerOk s)
    (hh : s.writer.st = .cmdWrite → ∃ f, h = some f) : ∃ t, machinesTick h s = .next t := by
  by_cases hw : s.writer.st = .idle
  · rw [machinesTick_reader h hw]
    exact readerTick_next hF
  · rw [machinesTick_writer h hw (hF.exclusion.resolve_left hw)]
    exact writerTick_next hF hh

theorem datapathRead_next {s : State} {g : Frame} (hg : s.downq.head? = some g) :
    ∃ t, datapathRead s = .next t := by
  unfold datapathRead
  simp only
  cases s.upq.ready with
  | false => exact ⟨_, rfl⟩
  | true =>
    cases s.bin.dp with
    | deliver b =>
      simp only [if_true]
      split
      · refine popDown_andThen_next (g := g) ?_ _; exact hg
      · exact ⟨_, rfl⟩
    | timeout => simp only [if_true]; refine popDown_andThen_next (g := g) ?_ _; exact hg
    | wait => exact ⟨_, rfl⟩
    | take => exact ⟨_, rfl⟩
    | ack st p => exact ⟨_, rfl⟩

theorem datapathWrite_next (last : Bool) {s : State} {g : Frame} (hg : s.downq.head? = some g) :
    ∃ t, datapathWrite last s = .next t := by
  unfold datapathWrite
  simp only
  cases s.bin.dp with
  | take =>
    simp only
    split
    · refine popDown_andThen_next (g := g) ?_ _; exact hg
    · exact ⟨_, rfl⟩
  | ack st p =>
    simp only
    split
    · cases p with
      | true => refine popDown_andThen_next (g := g) ?_ _; exact hg
      | false => exact ⟨_, rfl⟩
    · exact ⟨_, rfl⟩
  | wait => exact ⟨_, rfl⟩
  | deliver b => exact ⟨_, rfl⟩
  | timeout => exact ⟨_, rfl⟩

theorem dispatchXfer_next {f : Frame} {s : State} (hf : s.downq.head? = some f) :
    ∃ t, dispatchXfer f s = .next t := by
  unfold dispatchXfer
  split
  · exact ⟨_, rfl⟩
  · exact datapathRead_next hf
  · exact ⟨_, rfl⟩
  · exact datapathWrite_next f.last hf

/-- The machines beside a head that is no XFER frame: they run, and leave the head in place (R224). -/
theorem machinesTick_beside {s : State} {f : Frame} (hi : s.cfg.modes.injective = true) (hF : FramerOk s)
    (hf : s.downq.head? = some f) (hm : s.cfg.modes.mode? f.modeBits ≠ some .xfer) :
    ∃ u, machinesTick none s = .next u ∧ u.downq.head? = some f := by
  have hn := holdsNone_of_mode hF hi hf hm
  obtain ⟨u, hu⟩ := machinesTick_next (h := none) hF (fun h => by have := hn.1; rw [h] at this; cases this)
  exact ⟨u, hu, by rw [(machinesTick_holdsNone hn hu).1]; exact hf⟩

/-- A bus tick always has a next state: neither a fault nor a refusal (R12, R257). -/
theorem busStep_next {s : State} (hi : s.cfg.modes.injective = true) (hF : FramerOk s) :
    ∃ t, busStep s = .next t := by
  rw [busStep_eq]
  cases hf : s.downq.head? with
  | none =>
    refine machinesTick_next hF fun h => ?_
    obtain ⟨f, hh, _⟩ := hF.writerHead (by rw [h]; rfl)
    rw [hf] at hh; cases hh
  | some f =>
    simp only
    split
    · rename_i hm
      obtain ⟨u, hu, hg⟩ := machinesTick_beside hi hF hf (by rw [hm]; exact nofun)
      exact ⟨_, by unfold discardTick; rw [hu, andThen_next, popDown_of_head hg]⟩
    · by_cases hb : s.writer.st = .idle ∧ s.reader.st = .idle
      · rw [xferTick_idle f _ hb.1 hb.2]
        exact dispatchXfer_next hf
      · rw [xferTick_busy f _ hb]
        exact machinesTick_next hF fun _ => ⟨f, rfl⟩
    · rename_i m hx hm
      obtain ⟨u, hu, hg⟩ := machinesTick_beside hi hF hf
        (by rw [hm]; exact fun h => hx (Option.some.inj h))
      exact ⟨_, by unfold latchTick; rw [hu, andThen_next, popDown_of_head hg, andThen_next]⟩

end Sys2Proof.Machine
end

section
/-! PROOFS. The step as a whole: what it does to each queue (R320 to R326), that it keeps the invariant
(R216, R254, R257, R327), and that no state of the invariant faults. -/

namespace Sys2Proof.Machine

/-! The invariant through a control move. -/

/-- The invariant where the bus side stays, the head of `DOWNQ` is not taken away, and the rest is shown. -/
theorem Inv.of_sameBus {s t : State} (h : Inv s) (hb : SameBus s t) (hc : t.cfg = s.cfg)
    (hd : QueueOk t.downq) (hh : ∀ f, s.downq.head? = some f → t.downq.head? = some f)
    (hu : QueueOk t.upq) (hs : SequenceOk t) : Inv t where
  cfg := by rw [hc]; exact h.cfg
  downq := hd
  upq := hu
  sequence := hs
  framer := h.framer.congr hh hc hb.fcfg hb.writer hb.reader hb.sampler
  datapath := h.datapath.congr hh hc hb.fcfg hb.writer hb.reader hb.datapath
  lines := by rw [hb.pads, hc]; exact h.lines

theorem Config.injective_of_wellFormed {c : Config} (h : c.wellFormed = true) :
    c.modes.injective = true := by
  unfold Config.wellFormed at h
  simp only [Bool.and_eq_true] at h
  exact h.1.1

theorem Inv.injective {s : State} (h : Inv s) : s.cfg.modes.injective = true :=
  Config.injective_of_wellFormed h.cfg

theorem Inv.advance {s : State} (h : Inv s) : Inv s.advance :=
  h.of_sameBus (.of_control s ..) rfl h.downq (fun _ hf => hf) h.upq
    (h.sequence.congr rfl rfl rfl rfl)

theorem Inv.withEvent {s : State} (h : Inv s) (e : Event) : Inv (s.withEvent e) :=
  h.of_sameBus (.of_control s ..) rfl h.downq (fun _ hf => hf) h.upq
    (h.sequence.congr rfl rfl rfl rfl)

theorem Inv.withCtl {s : State} (h : Inv s) (i : CtlIn) : Inv (s.withCtl i) :=
  h.of_sameBus (.of_control s ..) rfl h.downq (fun _ hf => hf) h.upq
    (h.sequence.congr rfl rfl rfl rfl)

/-- The inputs of a bus tick are no part of the invariant. -/
theorem Inv.withBus {s : State} (h : Inv s) (i : BusIn) : Inv (s.withBus i) where
  cfg := h.cfg
  downq := h.downq
  upq := h.upq
  sequence := h.sequence.congr rfl rfl rfl rfl
  framer := h.framer.congr (fun _ hf => hf) rfl rfl rfl rfl rfl
  datapath := h.datapath.congr (fun _ hf => hf) rfl rfl rfl rfl rfl
  lines := h.lines

/-- Reset reaches a state of the invariant (R53). -/
theorem resetWith_inv {c : Config} (hc : c.wellFormed = true) (env : List Event) (n : Nat) :
    Inv (State.resetWith c env n) where
  cfg := hc
  downq := .empty
  upq := .empty
  sequence :=
    have zero_ne : (0 : BitVec 2) ≠ 3 := by decide
    ⟨Nat.zero_le _, fun _ _ => rfl, zero_ne, zero_ne⟩
  framer := .of_free_reader rfl rfl
  datapath := .of_free rfl
  lines := nofun

/-! Each event keeps the invariant. -/

theorem controlTick_keeps_inv {i : CtlIn} {s t : State} (h : Inv s) (e : controlTick i s = .next t) :
    Inv t := by
  obtain ⟨hm, hd, hu⟩ := controlStep_move e
  have h' := h.withCtl i
  exact h'.of_sameBus hm.bus hm.cfg (h'.downq.producerStep hd)
    (fun f hf => (hd.head?_eq h'.downq).trans hf) (h'.upq.consumerStep hu) (hm.sequence h'.sequence)

theorem busTick_keeps_inv {i : BusIn} {s t : State} (h : Inv s) (e : busTick i s = .next t) : Inv t := by
  have h' := h.withBus i
  have hm := busStep_move h'.injective h'.framer h'.datapath e
  exact {
    cfg := by rw [hm.cfg]; exact h'.cfg
    downq := h'.downq.consumerStep hm.downq
    upq := h'.upq.producerStep hm.upq
    sequence := h'.sequence.congr hm.control.ostate hm.control.pos hm.control.blkcnt hm.control.desc
    framer := hm.framer
    datapath := hm.datapath
    lines := hm.lines }

theorem syncVis_keeps_inv {s : State} (h : Inv s) (q : QueueName) : Inv (s.onQueue q Queue.syncVis) := by
  cases q with
  | downq =>
    exact h.of_sameBus (.of_control s ..) rfl h.downq.syncVis
      (fun _ hf => Queue.head?_syncVis hf) h.upq (h.sequence.congr rfl rfl rfl rfl)
  | upq =>
    exact h.of_sameBus (.of_control s ..) rfl h.downq (fun _ hf => hf) h.upq.syncVis
      (h.sequence.congr rfl rfl rfl rfl)

theorem syncCred_keeps_inv {s : State} (h : Inv s) (q : QueueName) : Inv (s.onQueue q Queue.syncCred) := by
  cases q with
  | downq =>
    exact h.of_sameBus (.of_control s ..) rfl h.downq.syncCred
      (fun _ hf => (Queue.head?_syncCred _).trans hf) h.upq (h.sequence.congr rfl rfl rfl rfl)
  | upq =>
    exact h.of_sameBus (.of_control s ..) rfl h.downq (fun _ hf => hf) h.upq.syncCred
      (h.sequence.congr rfl rfl rfl rfl)

theorem runEvent_keeps_inv {e : Event} {s t : State} (h : Inv s) (he : runEvent e s = .next t) : Inv t := by
  cases e with
  | control i => exact controlTick_keeps_inv h he
  | bus i => exact busTick_keeps_inv h he
  | syncVis q => cases he; exact syncVis_keeps_inv h q
  | syncCred q => cases he; exact syncCred_keeps_inv h q
  | reset => cases he; exact resetWith_inv h.cfg _ _

/-- Every step keeps the invariant, whatever the event. -/
theorem step_keeps_inv {s t : State} (h : Inv s) (he : step s = .next t) : Inv t :=
  runEvent_keeps_inv h.advance he

/-! What an event does to a queue. -/

/-- What an event may do to a queue (R320, R326, R330): a tick of its producer's context is a step of the
producer, a tick of its consumer's context one of the consumer, a step of its lag that step, and no more. -/
def QueueMove (q : QueueName) (e : Event) (a b : Queue) : Prop :=
  match e, q with
  | .control _, .downq => a.ProducerStep b
  | .control _, .upq => a.ConsumerStep b
  | .bus _, .downq => a.ConsumerStep b
  | .bus _, .upq => a.ProducerStep b
  | .syncVis q', q => b = if q' = q then a.syncVis else a
  | .syncCred q', q => b = if q' = q then a.syncCred else a
  | .reset, _ => b = .empty

theorem runEvent_queueMove {e : Event} {s t : State} (h : Inv s) (he : runEvent e s = .next t)
    (q : QueueName) : QueueMove q e (s.queue q) (t.queue q) := by
  cases e with
  | control i =>
    obtain ⟨_, hd, hu⟩ := controlStep_move he
    cases q with
    | downq => exact hd
    | upq => exact hu
  | bus i =>
    have h' := h.withBus i
    have hm := busStep_move h'.injective h'.framer h'.datapath he
    cases q with
    | downq => exact hm.downq
    | upq => exact hm.upq
  | syncVis q' => cases he; cases q <;> cases q' <;> rfl
  | syncCred q' => cases he; cases q <;> cases q' <;> rfl
  | reset => cases he; cases q <;> rfl

/-- Without a reset a queue is moved by one of its ends or by one step of its lag. -/
theorem QueueMove.cases {q : QueueName} {e : Event} {a b : Queue} (h : QueueMove q e a b)
    (hne : e ≠ .reset) :
    a.ProducerStep b ∨ a.ConsumerStep b ∨ b = a.syncVis ∨ b = a.syncCred := by
  have lag : ∀ {c : Prop} [Decidable c] {a' : Queue}, b = (if c then a' else a) →
      b = a' ∨ a.ProducerStep b := by
    intro c _ a' h
    split_ifs at h
    · exact .inl h
    · exact .inr (.inl h)
  cases e with
  | control i =>
    cases q with
    | downq => exact .inl h
    | upq => exact .inr (.inl h)
  | bus i =>
    cases q with
    | downq => exact .inr (.inl h)
    | upq => exact .inl h
  | syncVis q' => exact (lag h).elim (fun h => .inr (.inr (.inl h))) .inl
  | syncCred q' => exact (lag h).elim (fun h => .inr (.inr (.inr h))) .inl
  | reset => exact absurd rfl hne

/-! No fault. -/

theorem runEvent_ne_fault {e : Event} {s : State} (h : Inv s) (r : Fault) : runEvent e s ≠ .fault r := by
  cases e with
  | control i => exact controlStep_ne_fault (h.withCtl i).sequence r
  | bus i =>
    obtain ⟨t, ht⟩ := busStep_next (h.withBus i).injective (h.withBus i).framer
    exact fun hf => by cases ht.symm.trans hf
  | syncVis q => exact nofun
  | syncCred q => exact nofun
  | reset => exact nofun

/-- Settles O58: of the three faults, the byte index is in its unit by `SequenceOk`, at most one machine is
out of IDLE and holds its frame at a visible head by `FramerOk`, and every other pop looks at the head
first. -/
theorem invStatesNeverFault : Obligations.InvStatesNeverFault :=
  fun _ r h => runEvent_ne_fault h.advance r

/-! A control tick with a host access. -/

/-- In IDLE under `UQ_IDLE_POLICY = hold` a control tick is its host part with the pending triggers. -/
theorem controlStep_idle_hold {s : State} (ho : s.ostate = .idle) (hp : s.cfg.uqIdlePolicy = .hold) :
    controlStep s = idleStep s := by
  rw [controlStep_idle ho, orchTick_idle ho, consume_hold ho hp, andThen_next]

theorem servicePending_cons {s : State} {t : Trigger} {rest : List Trigger} (h : s.pending = t :: rest) :
    servicePending s = serviceTrigger t { s with pending := rest } := by
  unfold servicePending
  rw [h]

/-- Settles O7, clause by clause: IDLE with nothing pending, IDLE with a pending trigger, and elsewhere. -/
theorem stepRunsHostOperation : Obligations.StepRunsHostOperation := by
  intro s c a i hc hd
  have hh : hostPart (ctlStart c s) = exec i (ctlStart c s) := hostPart_ok hc hd
  refine ⟨fun ho hp hn => ?_, fun t rest h ho hp hn hx => ?_, fun ho => ?_⟩ <;> rw [step_control]
  · rw [controlStep_idle_hold (s := ctlStart c s) ho hp, idleStep_noPending (s := ctlStart c s) hn ho, hh]
  · rw [controlStep_idle_hold (s := ctlStart c s) ho hp]
    unfold idleStep
    rw [hh, hx, andThen_next, servicePending_cons (s := ctlStart c s) hn]
    rfl
  · rw [controlStep_busy (s := ctlStart c s) ho, hh]

end Sys2Proof.Machine
end

section
/-! PROOFS. Progress of the bus side: a measure that falls in every bus tick that can go on (R239 to R249). -/

namespace Sys2Proof.Machine

/-! The measure: at most how many bus ticks that can go on are left before the head is popped. -/

/-- More ticks than either machine takes from the dispatch of its frame to the pop. -/
def dispatchTicks : Nat := 2 ^ 32 + 2100

/-- The writer: the preamble and the eight bits, or the trailing clocks before a dispatch. -/
def Writer.ticksToPop (w : Writer) : Nat :=
  match w.st with
  | .idle => dispatchTicks
  | .init => 88 - w.cnt.toNat
  | .cmdWrite => 8 - w.bit.toNat
  | .cmdClk8 => dispatchTicks + (8 - w.cnt.toNat)

/-- The reader: the wait for the start bit, the bits of the bytes still to read, or the trailing clocks before
a dispatch. The bytes are counted modulo 256, as `r_cread` is. -/
def Reader.ticksToPop (x : Sampler) (r : Reader) : Nat :=
  match r.st with
  | .idle => dispatchTicks
  | .cmdReadstart => 2 ^ 32 + 2048 - r.timeout.toNat
  | .cmdRead => 8 * (r.toread - r.cread).toNat + (8 - x.cnt.toNat)
  | .timeout => 0
  | .cmdClk8 => dispatchTicks + (8 - r.cnt.toNat)

/-- The measure of the machine that runs (R223). -/
def ticksToPop (s : State) : Nat :=
  if s.writer.st = .idle then s.reader.ticksToPop s.sampler else s.writer.ticksToPop

theorem ticksToPop_reader {s : State} (h : s.writer.st = .idle) :
    ticksToPop s = s.reader.ticksToPop s.sampler := if_pos h

theorem ticksToPop_writer {s : State} (h : s.writer.st ≠ .idle) :
    ticksToPop s = s.writer.ticksToPop := if_neg h

/-- Both machines IDLE: a dispatch is next. -/
theorem ticksToPop_idle {s : State} (hw : s.writer.st = .idle) (hr : s.reader.st = .idle) :
    ticksToPop s = dispatchTicks := by
  rw [ticksToPop_reader hw, Reader.ticksToPop, hr]

theorem ticksToPop_congr {s t : State} (hw : t.writer = s.writer) (hr : t.reader = s.reader)
    (hx : t.sampler = s.sampler) : ticksToPop t = ticksToPop s := by
  rw [ticksToPop, ticksToPop, hw, hr, hx]

/-! How the measure of the writer falls (R239 to R241). -/

theorem Writer.initTick_ticksToPop_lt {w : Writer} (hst : w.st = .init) (hc : w.cnt.toNat ≤ 79) :
    w.initTick.st ≠ .idle ∧ w.initTick.ticksToPop < w.ticksToPop := by
  have hw : w.ticksToPop = 88 - w.cnt.toNat := by rw [Writer.ticksToPop, hst]
  rcases w.initTick_cases hc with hi | ⟨hi, hn, _⟩ <;> rw [hi, hw]
  · refine ⟨nofun, ?_⟩
    show 8 < _
    omega
  · refine ⟨by rw [hst]; exact nofun, ?_⟩
    simp only [Writer.ticksToPop, hst, hn]
    omega

theorem Writer.clk8Tick_ticksToPop_lt {w : Writer} (hst : w.st = .cmdClk8) (hc : w.cnt.toNat ≤ 7) :
    w.clk8Tick.ticksToPop < w.ticksToPop := by
  have hw : w.ticksToPop = dispatchTicks + (8 - w.cnt.toNat) := by rw [Writer.ticksToPop, hst]
  rcases w.clk8Tick_cases hc with hi | ⟨hi, hn, _⟩ <;> rw [hi, hw]
  · show dispatchTicks < _
    omega
  · simp only [Writer.ticksToPop, hst, hn]
    omega

theorem Writer.nextBit_ticksToPop_lt {w : Writer} (hst : w.st = .cmdWrite) (hb : w.bit ≠ 7) :
    Writer.ticksToPop { w with bit := w.bit + 1 } < w.ticksToPop := by
  have hb' : w.bit.toNat ≠ 7 := fun h => hb (BitVec.eq_of_toNat_eq h)
  simp only [Writer.ticksToPop, hst]
  bv_omega

theorem Writer.start_ticksToPop_lt (w : Writer) :
    w.start.st ≠ .idle ∧ w.start.ticksToPop < dispatchTicks := by
  unfold Writer.start
  split_ifs
  · exact ⟨nofun, by show 8 < _; decide⟩
  · exact ⟨nofun, by show 88 < _; decide⟩

/-! How the measure of the reader falls (R245 to R249). -/

/-- The trailing clocks of the reader end in IDLE, or count on (R247). -/
theorem Reader.clk8Tick_cases (r : Reader) :
    r.clk8Tick = { r with st := .idle, cnt := 0 } ∨
    (r.clk8Tick = { r with cnt := r.cnt + 1 } ∧ (r.cnt + 1).toNat = r.cnt.toNat + 1) := by
  unfold Reader.clk8Tick
  split_ifs with hc
  · exact .inl rfl
  · have : r.cnt.toNat ≠ 7 := fun h => hc (BitVec.eq_of_toNat_eq h)
    exact .inr ⟨rfl, by bv_omega⟩

/-- A tick in READ samples one more bit, or completes the byte with the eighth (R253). -/
theorem Sampler.sample_cases {x : Sampler} (b : Bool) (h : x.st = .read) :
    ((x.sample b).2 = none ∧ (x.sample b).1.cnt.toNat = x.cnt.toNat + 1) ∨
    (∃ nb, (x.sample b).2 = some nb ∧ x.cnt = 7 ∧ (x.sample b).1.cnt = 0) := by
  unfold Sampler.sample
  rw [h]
  simp only
  split_ifs with hc
  · exact .inr ⟨_, rfl, hc, rfl⟩
  · have : x.cnt.toNat ≠ 7 := fun h => hc (BitVec.eq_of_toNat_eq h)
    exact .inl ⟨rfl, by bv_omega⟩

theorem Reader.waitTick_ticksToPop_lt {r : Reader} (hst : r.st = .cmdReadstart) (threshold : BitVec 32)
    (x x' : Sampler) : (r.waitTick threshold x).ticksToPop x' < r.ticksToPop x := by
  have hr : r.ticksToPop x = 2 ^ 32 + 2048 - r.timeout.toNat := by rw [Reader.ticksToPop, hst]
  have htime := r.timeout.isLt
  rcases r.waitTick_cases threshold x with ⟨_, hi⟩ | ⟨_, hi⟩ | ⟨_, hi, hn, _⟩ <;> rw [hi, hr]
  · have hbytes := (r.toread - r.cread).isLt
    simp only [Reader.ticksToPop]
    omega
  · show 0 < _
    omega
  · simp only [Reader.ticksToPop, hst, hn]
    omega

/-- One more bit of a byte. -/
theorem Reader.sample_ticksToPop_lt {r : Reader} {x : Sampler} {b : Bool} (hst : r.st = .cmdRead)
    (hx : x.st = .read) (hn : (x.sample b).2 = none) :
    r.ticksToPop (x.sample b).1 < r.ticksToPop x := by
  rcases Sampler.sample_cases b hx with ⟨_, hc⟩ | ⟨nb, h, _⟩
  · have := (x.sample b).1.cnt.isLt
    simp only [Reader.ticksToPop, hst]
    omega
  · rw [hn] at h; cases h

/-- With `READLEN_BIAS = 1` a byte that is not the last one leaves one byte fewer, modulo 256 (R246). -/
theorem Reader.bytesLeft_of_not_last {c : Config} {r : Reader} (hb : c.readlenBias = 1)
    (hl : r.lastByte c = false) :
    (r.toread - r.cread).toNat = (r.toread - (r.cread + 1)).toNat + 1 := by
  have hne : r.cread.toNat ≠ r.toread.toNat := by simpa [Reader.lastByte, hb] using hl
  bv_omega

/-- A whole byte that is not the last one. -/
theorem Reader.nextByte_ticksToPop_lt {c : Config} {r : Reader} {x : Sampler} {b : Bool} {nb : Byte}
    (hst : r.st = .cmdRead) (hx : x.st = .read) (hs : (x.sample b).2 = some nb)
    (hb : c.readlenBias = 1) (hl : r.lastByte c = false) :
    Reader.ticksToPop (x.sample b).1 { r with cread := r.cread + 1 } < r.ticksToPop x := by
  have hleft := Reader.bytesLeft_of_not_last hb hl
  rcases Sampler.sample_cases b hx with ⟨h, _⟩ | ⟨_, _, h7, h0⟩
  · rw [hs] at h; cases h
  · simp only [Reader.ticksToPop, hst, h7, h0, hleft]
    show 8 * _ + 8 < 8 * (_ + 1) + 1
    omega

theorem Reader.clk8Tick_ticksToPop_lt {r : Reader} (hst : r.st = .cmdClk8) (x x' : Sampler) :
    r.clk8Tick.ticksToPop x' < r.ticksToPop x := by
  have hr : r.ticksToPop x = dispatchTicks + (8 - r.cnt.toNat) := by rw [Reader.ticksToPop, hst]
  have hcnt := r.cnt.isLt
  rcases r.clk8Tick_cases with hi | ⟨hi, hn⟩ <;> rw [hi, hr]
  · show dispatchTicks < _
    omega
  · have := (r.cnt + 1).isLt
    simp only [Reader.ticksToPop, hst, hn]
    omega

theorem Reader.start_ticksToPop_lt {r : Reader} (f : Frame) (hst : r.st = .idle) (x x' : Sampler) :
    (r.start f).ticksToPop x' < r.ticksToPop x := by
  have hr : r.ticksToPop x = dispatchTicks := by rw [Reader.ticksToPop, hst]
  rw [hr]
  show 2 ^ 32 + 2048 - 0 < dispatchTicks
  decide

/-! What a bus tick comes to for the visible head of `DOWNQ`. -/

/-- The head is popped, or it is nearer to its pop, or its machine waits for a place in `UPQ` (R248, R249). -/
def HeadAdvances (s t : State) : Prop :=
  t.downq = s.downq.pop ∨
  (t.downq = s.downq ∧ (ticksToPop t < ticksToPop s ∨
    (NeedsUpq s ∧ s.upq.ready = false ∧ t.upq = s.upq ∧ ticksToPop t = ticksToPop s)))

theorem HeadAdvances.of_lt {s t : State} (hd : t.downq = s.downq) (h : ticksToPop t < ticksToPop s) :
    HeadAdvances s t := .inr ⟨hd, .inl h⟩

theorem HeadAdvances.of_writer {s t : State} (hd : t.downq = s.downq) (hw : s.writer.st ≠ .idle)
    (ht : t.writer.st ≠ .idle) (h : t.writer.ticksToPop < s.writer.ticksToPop) : HeadAdvances s t :=
  .of_lt hd (by rw [ticksToPop_writer hw, ticksToPop_writer ht]; exact h)

theorem HeadAdvances.of_reader {s t : State} (hd : t.downq = s.downq) (hw : s.writer.st = .idle)
    (ht : t.writer.st = .idle) (h : t.reader.ticksToPop t.sampler < s.reader.ticksToPop s.sampler) :
    HeadAdvances s t :=
  .of_lt hd (by rw [ticksToPop_reader hw, ticksToPop_reader ht]; exact h)

/-- The writer's trailing clocks are over: a dispatch is next. -/
theorem HeadAdvances.of_trailing {s t : State} (hd : t.downq = s.downq) (hw : s.writer.st ≠ .idle)
    (ht : t.writer.st = .idle) (hr : t.reader.st = .idle) (h : dispatchTicks < s.writer.ticksToPop) :
    HeadAdvances s t :=
  .of_lt hd (by rw [ticksToPop_writer hw, ticksToPop_idle ht hr]; exact h)

/-- The writer out of IDLE goes on in every tick (R239 to R241). -/
theorem writerTick_advances {h : Option Frame} {s t : State} (hF : FramerOk s)
    (hw : s.writer.st ≠ .idle) (hr : s.reader.st = .idle) (e : writerTick h s = .next t) :
    HeadAdvances s t := by
  rcases writerTick_eq_next hw e with ⟨hst, rfl⟩ | ⟨hst, rfl⟩ | ⟨hst, hb, f, _, rfl⟩ | ⟨_, _, _, f, _, rfl⟩
  · obtain ⟨hne, hlt⟩ := Writer.initTick_ticksToPop_lt hst (hF.initCount hst)
    exact .of_writer rfl hw hne hlt
  · have hlt := Writer.clk8Tick_ticksToPop_lt hst (hF.clk8Count hst)
    by_cases hi : s.writer.clk8Tick.st = .idle
    · rw [Writer.ticksToPop, hi] at hlt
      exact .of_trailing rfl hw hi hr hlt
    · exact .of_writer rfl hw hi hlt
  · exact .of_writer rfl hw hw (Writer.nextBit_ticksToPop_lt hst hb)
  · exact .inl rfl

/-- The reader out of IDLE goes on in every tick, or waits for a place in `UPQ` (R245 to R249). -/
theorem readerTick_advances {s t : State} (hF : FramerOk s) (hw : s.writer.st = .idle)
    (hr : s.reader.st ≠ .idle) (hb : s.cfg.readlenBias = 1) (e : readerTick s = .next t) :
    HeadAdvances s t := by
  rcases readerTick_eq_next e with ⟨hst, _⟩ | ⟨hst, rfl⟩ | ⟨hst, hq, rfl⟩ | ⟨hst, _, hn, rfl⟩ |
    ⟨hst, _, b, hsome, e⟩ | ⟨hst, rfl⟩ | ⟨hst, hq, rfl⟩ | ⟨_, _, _, rfl⟩
  · exact absurd hst hr
  · exact .of_reader rfl hw hw (Reader.waitTick_ticksToPop_lt hst _ _ _)
  · exact .inr ⟨rfl, .inr ⟨.inl hst, hq, rfl, ticksToPop_congr rfl rfl rfl⟩⟩
  · exact .of_reader rfl hw hw (Reader.sample_ticksToPop_lt hst (hF.sampling hst) hn)
  · rcases forwardByte_eq_next e with ⟨hl, rfl⟩ | ⟨_, _, rfl⟩
    · exact .of_reader rfl hw hw (Reader.nextByte_ticksToPop_lt hst (hF.sampling hst) hsome hb hl)
    · exact .inl rfl
  · exact .of_reader rfl hw hw (Reader.clk8Tick_ticksToPop_lt hst _ _)
  · refine .inr ⟨rfl, .inr ⟨.inr (.inl hst), hq, rfl, ?_⟩⟩
    rw [ticksToPop_reader hw, ticksToPop_reader (s := idleTick s) hw]
    simp only [Reader.ticksToPop, idleTick_reader, hst]
  · exact .inl rfl

/-- A command frame dispatched starts its machine (R238, R244). -/
theorem dispatchXfer_advances {f : Frame} {s t : State} (hf : s.downq.head? = some f)
    (hm : s.cfg.modes.mode? f.modeBits = some .xfer) (hw : s.writer.st = .idle)
    (hr : s.reader.st = .idle) (hn : ¬DatapathOwns s) (e : dispatchXfer f s = .next t) :
    HeadAdvances s t := by
  have hh := headIs_of_mode hf hm
  have owns : ∀ d, ¬HeadIs .data d s := fun d hd => hn ⟨(bothIdle_iff s).mpr ⟨hw, hr⟩, d, hd⟩
  unfold dispatchXfer at e
  split at e <;> rename_i h0 h1 <;> rw [h0, h1] at hh
  · cases e
    exact .of_reader rfl hw hw (Reader.start_ticksToPop_lt f hr _ _)
  · exact absurd hh (owns _)
  · cases e
    obtain ⟨hne, hlt⟩ := s.writer.start_ticksToPop_lt
    refine .of_lt rfl ?_
    rw [ticksToPop_idle hw hr, ticksToPop_writer hne]
    exact hlt
  · exact absurd hh (owns _)

/-- A bus tick brings the visible head nearer to its pop, unless DATAPATH owns it or its machine waits for a
place in `UPQ`. -/
theorem busStep_advances {s t : State} {f : Frame} (h : Inv s) (hb : s.cfg.readlenBias = 1)
    (hf : s.downq.head? = some f) (hn : ¬DatapathOwns s) (e : busStep s = .next t) :
    HeadAdvances s t := by
  rcases busStep_cases e with ⟨e, hbusy⟩ | ⟨g, hg, hm, hw, hr, e⟩ | ⟨g, u, r, hg, hm, hu, _, rfl⟩
  · have hbusy := hbusy.resolve_left (by rw [hf]; exact nofun)
    rcases machinesTick_eq_next e with ⟨hw, e⟩ | ⟨hw, hr, e⟩
    · exact readerTick_advances h.framer hw (fun hr => hbusy ⟨hw, hr⟩) hb e
    · exact writerTick_advances h.framer hw hr e
  · exact dispatchXfer_advances hg hm hw hr hn e
  · have hnone := holdsNone_of_mode h.framer h.injective hg hm
    exact .inl (congrArg Queue.pop (machinesTick_holdsNone hnone hu).1)

end Sys2Proof.Machine
end

section
/-! PROOFS. Progress in fair runs (R326, R331): the lag hides no frame and no place for ever, and the head of
`DOWNQ` comes to its pop. -/

namespace Sys2Proof.Machine

/-! One step of a run. -/

/-- A step moves each queue as its event may. -/
theorem step_queueMove {e : Event} {s t : State} (h : Inv s) (he : step (s.withEvent e) = .next t)
    (q : QueueName) : QueueMove q e (s.queue q) (t.queue q) := by
  have := runEvent_queueMove (h.withEvent e).advance he q
  cases q <;> exact this

/-- No step changes the parameters. -/
theorem step_cfg {e : Event} {s t : State} (h : Inv s) (he : step (s.withEvent e) = .next t) :
    t.cfg = s.cfg := by
  cases e with
  | control i => exact (controlStep_move he).1.cfg
  | bus i =>
    have h' := ((h.withEvent (.bus i)).advance).withBus i
    exact (busStep_move h'.injective h'.framer h'.datapath he).cfg
  | syncVis q => cases he; cases q <;> rfl
  | syncCred q => cases he; cases q <;> rfl
  | reset => cases he; rfl

/-! What hides in a queue stays there until it shows. -/

/-- Frames that the consumer does not see are not popped. -/
theorem QueueMove.items_ne_nil {q : QueueName} {e : Event} {a b : Queue} (h : QueueMove q e a b)
    (hne : e ≠ .reset) (hv : a.valid = false) (hi : a.items ≠ []) : b.items ≠ [] := by
  rcases h.cases hne with (rfl | ⟨_, f, rfl⟩) | (rfl | ⟨⟨f, hf⟩, _⟩) | rfl | rfl
  · exact hi
  · simp
  · exact hi
  · simp [Queue.head?, hv] at hf
  · unfold Queue.syncVis; split_ifs <;> exact hi
  · unfold Queue.syncCred; split_ifs <;> exact hi

/-- A place that the producer does not see is not filled. -/
theorem QueueMove.items_length_lt {q : QueueName} {e : Event} {a b : Queue} (h : QueueMove q e a b)
    (hne : e ≠ .reset) (hr : a.ready = false) (hl : a.items.length < 2) : b.items.length < 2 := by
  rcases h.cases hne with (rfl | ⟨hr', _⟩) | (rfl | ⟨_, rfl⟩) | rfl | rfl
  · exact hl
  · rw [hr] at hr'; cases hr'
  · exact hl
  · rw [Queue.pop_items, List.length_tail]; omega
  · unfold Queue.syncVis; split_ifs <;> exact hl
  · unfold Queue.syncCred; split_ifs <;> exact hl

theorem QueueMove.valid_of_syncVis {q : QueueName} {a b : Queue} (h : QueueMove q (.syncVis q) a b)
    (hv : a.vis < a.items.length) : b.valid = true := by
  have hb : b = a.syncVis := by simpa [QueueMove] using h
  rw [hb, Queue.syncVis, if_pos hv]
  simp [Queue.valid]

theorem QueueMove.ready_of_syncCred {q : QueueName} {a b : Queue} (h : QueueMove q (.syncCred q) a b)
    (hc : a.cred < 2 - a.items.length) : b.ready = true := by
  have hb : b = a.syncCred := by simpa [QueueMove] using h
  rw [hb, Queue.syncCred, if_pos hc]
  simp [Queue.ready]

theorem Queue.ready_syncVis {q : Queue} (h : q.ready = true) : q.syncVis.ready = true := by
  unfold Queue.syncVis; split_ifs <;> exact h

theorem Queue.ready_syncCred {q : Queue} (h : q.ready = true) : q.syncCred.ready = true := by
  unfold Queue.syncCred
  split_ifs
  · simp [Queue.ready]
  · exact h

/-! What a step comes to for the visible head of `DOWNQ`. -/

/-- A step that brings the head no nearer takes no place of `UPQ`, and is a bus tick only where the machine
waits for one. -/
structure HeadWaits (e : Event) (s t : State) : Prop where
  ticks : ticksToPop t = ticksToPop s
  ready : s.upq.ready = true → t.upq.ready = true
  blocked : (∃ b, e = .bus b) → NeedsUpq s ∧ s.upq.ready = false

/-- In a step the visible head is popped, or stays and is nearer to its pop, or waits. -/
theorem step_head {e : Event} {s t : State} {f : Frame} (h : Inv s) (hb : s.cfg.readlenBias = 1)
    (hf : s.downq.head? = some f) (hn : ¬DatapathOwns s) (hne : e ≠ .reset)
    (he : step (s.withEvent e) = .next t) :
    (∃ g, s.downq.items = g :: t.downq.items) ∨
    (t.downq.head? = some f ∧ (ticksToPop t < ticksToPop s ∨ HeadWaits e s t)) := by
  cases e with
  | control i =>
    obtain ⟨hm, hd, hu⟩ := controlStep_move he
    exact .inr ⟨(hd.head?_eq h.downq).trans hf, .inr ⟨ticksToPop_congr hm.bus.writer hm.bus.reader
      hm.bus.sampler, hu.ready, nofun⟩⟩
  | bus i =>
    have h' := ((h.withEvent (.bus i)).advance).withBus i
    rcases busStep_advances h' hb hf hn he with hd | ⟨hd, hlt | ⟨hneed, hq, hu, ht⟩⟩
    · obtain ⟨_, rest, hr⟩ := Queue.head?_eq_some.mp hf
      refine .inl ⟨f, ?_⟩
      rw [hd, Queue.pop_items]
      show s.downq.items = f :: s.downq.items.tail
      rw [hr, List.tail_cons]
    · exact .inr ⟨by rw [hd]; exact hf, .inl hlt⟩
    · exact .inr ⟨by rw [hd]; exact hf, .inr ⟨ht, by rw [hu]; exact id, fun _ => ⟨hneed, hq⟩⟩⟩
  | syncVis q =>
    cases he
    cases q with
    | downq => exact .inr ⟨Queue.head?_syncVis hf, .inr ⟨ticksToPop_congr rfl rfl rfl, id, nofun⟩⟩
    | upq => exact .inr ⟨hf, .inr ⟨ticksToPop_congr rfl rfl rfl, Queue.ready_syncVis, nofun⟩⟩
  | syncCred q =>
    cases he
    cases q with
    | downq =>
      exact .inr ⟨(Queue.head?_syncCred _).trans hf, .inr ⟨ticksToPop_congr rfl rfl rfl, id, nofun⟩⟩
    | upq => exact .inr ⟨hf, .inr ⟨ticksToPop_congr rfl rfl rfl, Queue.ready_syncCred, nofun⟩⟩
  | reset => exact absurd rfl hne

/-! Runs. -/

section
variable {e : Nat → Event} {σ : Nat → State}

/-- Every state of a run from the invariant meets it. -/
theorem IsRun.inv (h : IsRun e σ) (h0 : Inv (σ 0)) (n : Nat) : Inv (σ n) := by
  induction n with
  | zero => exact h0
  | succ n ih => exact step_keeps_inv (ih.withEvent (e n)) (h n)

theorem IsRun.cfg (h : IsRun e σ) (h0 : Inv (σ 0)) (n : Nat) : (σ n).cfg = (σ 0).cfg := by
  induction n with
  | zero => rfl
  | succ n ih => exact (step_cfg (h.inv h0 n) (h n)).trans ih

/-- R326: a queue that holds a frame comes to show one to its consumer. -/
theorem FairRun.valid_eventually (h : FairRun e σ) (h0 : Inv (σ 0)) (q : QueueName) {n : Nat}
    (hi : ((σ n).queue q).items ≠ []) : ∃ m, n ≤ m ∧ ((σ m).queue q).valid = true := by
  by_contra hno
  have hidden : ∀ m, n ≤ m → ((σ m).queue q).valid = false := fun m hm =>
    Bool.eq_false_iff.mpr fun hv => hno ⟨m, hm, hv⟩
  have move := fun m => step_queueMove (h.run.inv h0 m) (h.run m) q
  have stays : ∀ m, n ≤ m → ((σ m).queue q).items ≠ [] := fun m hm => by
    induction m, hm using Nat.le_induction with
    | base => exact hi
    | succ m hm ih => exact (move m).items_ne_nil (h.noReset m) (hidden m hm) ih
  have lag : ∀ m, n ≤ m → ((σ m).queue q).vis < ((σ m).queue q).items.length := fun m hm => by
    have hv : ¬0 < ((σ m).queue q).vis := by simpa [Queue.valid] using hidden m hm
    have := List.length_pos_iff.mpr (stays m hm)
    omega
  obtain ⟨m, hm, he⟩ := (h.lag q n).1 (lag n le_rfl)
  have hv := (he ▸ move m).valid_of_syncVis (lag m hm)
  rw [hidden (m + 1) (by omega)] at hv
  cases hv

/-- R326: a queue with a free place comes to show one to its producer. -/
theorem FairRun.ready_eventually (h : FairRun e σ) (h0 : Inv (σ 0)) (q : QueueName) {n : Nat}
    (hl : ((σ n).queue q).items.length < 2) : ∃ m, n ≤ m ∧ ((σ m).queue q).ready = true := by
  by_contra hno
  have hidden : ∀ m, n ≤ m → ((σ m).queue q).ready = false := fun m hm =>
    Bool.eq_false_iff.mpr fun hv => hno ⟨m, hm, hv⟩
  have move := fun m => step_queueMove (h.run.inv h0 m) (h.run m) q
  have stays : ∀ m, n ≤ m → ((σ m).queue q).items.length < 2 := fun m hm => by
    induction m, hm using Nat.le_induction with
    | base => exact hl
    | succ m hm ih => exact (move m).items_length_lt (h.noReset m) (hidden m hm) ih
  have lag : ∀ m, n ≤ m → ((σ m).queue q).cred < 2 - ((σ m).queue q).items.length := fun m hm => by
    have hc : ¬0 < ((σ m).queue q).cred := by simpa [Queue.ready] using hidden m hm
    have := stays m hm
    omega
  obtain ⟨m, hm, he⟩ := (h.lag q n).2 (lag n le_rfl)
  have hr := (he ▸ move m).ready_of_syncCred (lag m hm)
  rw [hidden (m + 1) (by omega)] at hr
  cases hr

/-- No machine waits for ever: `UPQ` gets ready for one that waits, stays so as nobody else takes the place,
and then a bus tick comes. -/
theorem FairRun.not_waits_forever (h : FairRun e σ) (hu : UpqServes σ) (n : Nat) :
    ¬∀ m, n ≤ m → HeadWaits (e m) (σ m) (σ (m + 1)) := by
  intro wait
  obtain ⟨m₁, i₁, hm₁, he₁⟩ := (h.ticks n).2
  obtain ⟨m₂, hm₂, hr₂⟩ := hu m₁ ((wait m₁ hm₁).blocked ⟨i₁, he₁⟩).1
  have ready : ∀ m, m₂ ≤ m → (σ m).upq.ready = true := fun m hm => by
    induction m, hm using Nat.le_induction with
    | base => exact hr₂
    | succ m hm ih => exact (wait m (by omega)).ready ih
  obtain ⟨m₃, i₃, hm₃, he₃⟩ := (h.ticks m₂).2
  have hfull := ((wait m₃ (by omega)).blocked ⟨i₃, he₃⟩).2
  rw [ready m₃ hm₃] at hfull
  cases hfull

/-- R331: a visible head of `DOWNQ` is popped sooner or later, by induction on the measure: a head never
popped and never nearer to its pop would wait for ever. -/
theorem FairRun.pops_of_head (h : FairRun e σ) (h0 : Inv (σ 0)) (hb : (σ 0).cfg.readlenBias = 1)
    (hu : UpqServes σ) (k : Nat) :
    ∀ n f, ticksToPop (σ n) = k → (σ n).downq.head? = some f → ∃ m, n ≤ m ∧ Pops σ .downq m := by
  induction k using Nat.strong_induction_on with
  | _ k ih =>
    intro n f hk hf
    by_contra hno
    have never : ∀ m, n ≤ m → ¬Pops σ .downq m := fun m hm hp => hno ⟨m, hm, hp⟩
    have notOwned : ∀ m, n ≤ m → ¬DatapathOwns (σ m) := fun m hm ho => by
      obtain ⟨m', hm', hp⟩ := h.datapath hu m ho
      exact never m' (hm.trans hm') hp
    have waits : ∀ m, n ≤ m → ticksToPop (σ m) = k → (σ m).downq.head? = some f →
        (σ (m + 1)).downq.head? = some f ∧ HeadWaits (e m) (σ m) (σ (m + 1)) := by
      intro m hm hkm hfm
      have hbm : (σ m).cfg.readlenBias = 1 := by rw [h.run.cfg h0 m]; exact hb
      rcases step_head (h.run.inv h0 m) hbm hfm (notOwned m hm) (h.noReset m) (h.run m) with
        hp | ⟨hf', hlt | hw⟩
      · exact absurd hp (never m hm)
      · obtain ⟨m', hm', hp⟩ := ih _ (hkm ▸ hlt) (m + 1) f rfl hf'
        exact absurd hp (never m' (by omega))
      · exact ⟨hf', hw⟩
    have stays : ∀ m, n ≤ m → ticksToPop (σ m) = k ∧ (σ m).downq.head? = some f := fun m hm => by
      induction m, hm using Nat.le_induction with
      | base => exact ⟨hk, hf⟩
      | succ m hm ihm =>
        obtain ⟨hf', hw⟩ := waits m hm ihm.1 ihm.2
        exact ⟨hw.ticks.trans ihm.1, hf'⟩
    exact h.not_waits_forever hu n fun m hm => (waits m hm (stays m hm).1 (stays m hm).2).2

/-- R331: whenever `DOWNQ` holds a frame, its oldest frame comes to be visible, and is popped. -/
theorem FairRun.downq_drains (h : FairRun e σ) (h0 : Inv (σ 0)) (hb : (σ 0).cfg.readlenBias = 1)
    (hu : UpqServes σ) {n : Nat} (hi : (σ n).downq.items ≠ []) : ∃ m, n ≤ m ∧ Pops σ .downq m := by
  obtain ⟨m, hm, hv⟩ := h.valid_eventually h0 .downq hi
  have hvis : 0 < (σ m).downq.vis := of_decide_eq_true hv
  obtain ⟨f, rest, hq⟩ := List.exists_cons_of_length_pos
    (hvis.trans_le (h.run.inv h0 m).downq.seen)
  obtain ⟨m', hm', hp⟩ := h.pops_of_head h0 hb hu _ m f rfl (Queue.head?_eq_some.mpr ⟨hvis, rest, hq⟩)
  exact ⟨m', hm.trans hm', hp⟩

end

/-- Settles O50: the lag by persistence of what hides, the drain by induction on `ticksToPop`. -/
theorem fairRunsMakeProgress : Obligations.FairRunsMakeProgress :=
  fun _ _ h h0 => ⟨fun q _ hi => h.valid_eventually h0 q hi, fun q _ hl => h.ready_eventually h0 q hl,
    fun hb hu _ hi => h.downq_drains h0 hb hu hi⟩

end Sys2Proof.Machine
end

section
/-! PROOFS. What each side leaves to the other in one tick (R20): a bus tick neither reads nor writes the
control side, and a control tick writes nothing of the bus side. -/

namespace Sys2Proof.Machine

/-! The control side put in the place of another. -/

/-- The bus side, the queues and the parameters of `s`, with the control side of `u`. -/
def State.withControlOf (s u : State) : State :=
  { u with
    cfg := s.cfg, downq := s.downq, upq := s.upq, fcfg := s.fcfg, writer := s.writer
    reader := s.reader, sampler := s.sampler, datapath := s.datapath, pads := s.pads, bin := s.bin }

@[simp] theorem withControlOf_cfg (s u : State) : (s.withControlOf u).cfg = s.cfg := rfl
@[simp] theorem withControlOf_downq (s u : State) : (s.withControlOf u).downq = s.downq := rfl
@[simp] theorem withControlOf_upq (s u : State) : (s.withControlOf u).upq = s.upq := rfl
@[simp] theorem withControlOf_fcfg (s u : State) : (s.withControlOf u).fcfg = s.fcfg := rfl
@[simp] theorem withControlOf_datapath (s u : State) : (s.withControlOf u).datapath = s.datapath := rfl
@[simp] theorem withControlOf_bin (s u : State) : (s.withControlOf u).bin = s.bin := rfl

theorem withControlOf_self (s : State) : s.withControlOf s = s := rfl

theorem SameBus.withControlOf (s u : State) : SameBus s (s.withControlOf u) :=
  ⟨rfl, rfl, rfl, rfl, rfl, rfl, rfl⟩

theorem SameControl.withControlOf (s u : State) : SameControl u (s.withControlOf u) :=
  ⟨rfl, rfl, rfl, rfl, rfl, rfl, rfl, rfl, rfl, rfl, rfl, rfl, rfl, rfl⟩

/-- A state that agrees on all but the control side differs in the control side alone. -/
theorem SameBus.withControlOf_eq {s u : State} (h : SameBus s u) (hd : u.downq = s.downq)
    (hq : u.upq = s.upq) (hc : u.cfg = s.cfg) : s.withControlOf u = u := by
  obtain ⟨h1, h2, h3, h4, h5, h6, h7⟩ := h
  unfold State.withControlOf
  rw [← hc, ← hd, ← hq, ← h1, ← h2, ← h3, ← h4, ← h5, ← h6, ← h7]

/-- `F` neither reads nor writes the control side: whatever that is, `F` does the same to the rest. -/
def BusLocal (F : State → Result State) : Prop :=
  ∀ ⦃s t⦄ u, F s = .next t → F (s.withControlOf u) = .next (t.withControlOf u)

theorem BusLocal.sameControl {F : State → Result State} (h : BusLocal F) {s t : State}
    (e : F s = .next t) : SameControl s t := by
  have ht : t = t.withControlOf s := by
    have := h s e
    rw [withControlOf_self, e] at this
    injection this
  rw [ht]
  exact .withControlOf t s

theorem BusLocal.andThen {F G : State → Result State} (hF : BusLocal F) (hG : BusLocal G) :
    BusLocal fun s => Machine.andThen (F s) G := by
  intro s t u e
  obtain ⟨v, hv, e⟩ := andThen_eq_next.mp e
  exact andThen_eq_next.mpr ⟨_, hF u hv, hG u e⟩

theorem popDown_busLocal : BusLocal popDown := by
  intro s t u e
  obtain ⟨hf, rfl⟩ := popDown_eq_next.mp e
  exact popDown_eq_next.mpr ⟨hf, rfl⟩

/-- A pop, then an update of the bus side. -/
theorem popDown_then_busLocal {g : State → State}
    (hg : ∀ s u, g (s.withControlOf u) = (g s).withControlOf u) :
    BusLocal fun s => andThen (popDown s) fun t => .next (g t) :=
  popDown_busLocal.andThen fun s t u e => by
    cases e
    exact congrArg _ (hg s u)

/-! The machines. -/

theorem writerTick_withControlOf {h : Option Frame} {s t : State} (hw : s.writer.st ≠ .idle)
    (e : writerTick h s = .next t) (u : State) :
    writerTick h (s.withControlOf u) = .next (t.withControlOf u) := by
  rcases writerTick_eq_next hw e with ⟨h0, rfl⟩ | ⟨h0, rfl⟩ | ⟨h0, hb, f, rfl, rfl⟩ |
    ⟨h0, hb, ⟨g, hg⟩, f, rfl, rfl⟩
  · exact writerTick_init h h0
  · exact writerTick_clk8 h h0
  · exact writerTick_bit f h0 hb
  · rw [hb]
    exact writerTick_lastBit f h0 hb hg

theorem forwardByte_busLocal (b : Byte) : BusLocal (forwardByte b) := by
  intro s t u e
  rcases forwardByte_eq_next e with ⟨hl, rfl⟩ | ⟨hl, ⟨g, hg⟩, rfl⟩
  · exact forwardByte_more b (s := s.withControlOf u) hl
  · exact forwardByte_last b (s := s.withControlOf u) hl hg

theorem readerTick_idle {s : State} (hr : s.reader.st = .idle) : readerTick s = .next (idleTick s) := by
  unfold readerTick
  rw [hr]

theorem readerTick_busLocal : BusLocal readerTick := by
  intro s t u e
  rcases readerTick_eq_next e with ⟨h0, rfl⟩ | ⟨h0, rfl⟩ | ⟨h0, hq, rfl⟩ | ⟨h0, hq, hb, rfl⟩ |
    ⟨h0, hq, b, hb, e⟩ | ⟨h0, rfl⟩ | ⟨h0, hq, rfl⟩ | ⟨h0, hq, ⟨g, hg⟩, rfl⟩
  · exact readerTick_idle (s := s.withControlOf u) h0
  · exact readerTick_wait (s := s.withControlOf u) h0
  · exact readerTick_full (s := s.withControlOf u) h0 hq
  · exact readerTick_sample (s := s.withControlOf u) h0 hq hb
  · exact (readerTick_byte (s := s.withControlOf u) h0 hq hb).trans (forwardByte_busLocal b u e)
  · exact readerTick_clk8 (s := s.withControlOf u) h0
  · exact readerTick_timeoutFull (s := s.withControlOf u) h0 hq
  · exact readerTick_timeout (s := s.withControlOf u) h0 hq hg

theorem machinesTick_busLocal (h : Option Frame) : BusLocal (machinesTick h) := by
  intro s t u e
  rcases machinesTick_eq_next e with ⟨hw, e⟩ | ⟨hw, hr, e⟩
  · exact (machinesTick_reader h (s := s.withControlOf u) hw).trans (readerTick_busLocal u e)
  · exact (machinesTick_writer h (s := s.withControlOf u) hw hr).trans (writerTick_withControlOf hw e u)

/-! DATAPATH. -/

theorem popDown_free_busLocal :
    BusLocal fun s => andThen (popDown s) fun t => .next { t with datapath := .free } :=
  popDown_then_busLocal fun _ _ => rfl

theorem datapathRead_busLocal : BusLocal datapathRead := by
  intro s t u e
  unfold datapathRead at e ⊢
  simp only [withControlOf_upq, withControlOf_bin, withControlOf_fcfg, withControlOf_datapath] at e ⊢
  split at e <;> rename_i hq
  · simp only [hq, if_true]
    cases hd : s.bin.dp with
    | wait => simp only [hd] at e ⊢; cases e; rfl
    | take => simp only [hd] at e ⊢; cases e; rfl
    | ack st pop => simp only [hd] at e ⊢; cases e; rfl
    | timeout =>
      simp only [hd] at e ⊢
      exact popDown_free_busLocal u e
    | deliver b =>
      simp only [hd] at e ⊢
      by_cases hl : s.fcfg.blocksize.toNat + 2 ≤ s.datapath.sent + 1
      · simp only [hl, decide_true, if_true] at e ⊢
        exact popDown_free_busLocal u e
      · simp only [hl, decide_false, Bool.false_eq_true, if_false] at e ⊢
        cases e; rfl
  · simp only [hq]
    cases e; rfl

theorem datapathWrite_busLocal (last : Bool) : BusLocal (datapathWrite last) := by
  intro s t u e
  unfold datapathWrite at e ⊢
  simp only [withControlOf_upq, withControlOf_bin, withControlOf_datapath] at e ⊢
  cases hd : s.bin.dp with
  | wait => simp only [hd] at e ⊢; cases e; rfl
  | deliver b => simp only [hd] at e ⊢; cases e; rfl
  | timeout => simp only [hd] at e ⊢; cases e; rfl
  | take =>
    simp only [hd] at e ⊢
    split at e <;> rename_i hc
    · simp only [hc, if_true]
      exact popDown_free_busLocal u e
    · simp only [hc]
      cases e; rfl
  | ack st pop =>
    simp only [hd] at e ⊢
    split at e <;> rename_i hc
    · simp only [hc, if_true]
      cases pop with
      | false => cases e; rfl
      | true => exact popDown_free_busLocal u e
    · simp only [hc]
      cases e; rfl

/-! The whole bus tick. -/

theorem dispatchXfer_busLocal (f : Frame) : BusLocal (dispatchXfer f) := by
  intro s t u e
  unfold dispatchXfer at e ⊢
  split at e
  · cases e; rfl
  · exact datapathRead_busLocal u e
  · cases e; rfl
  · exact datapathWrite_busLocal f.last u e

theorem xferTick_busLocal (f : Frame) : BusLocal (xferTick f (dispatchXfer f)) := by
  intro s t u e
  by_cases hi : s.writer.st = .idle ∧ s.reader.st = .idle
  · rw [xferTick_idle f _ hi.1 hi.2] at e
    rw [xferTick_idle (s := s.withControlOf u) f _ hi.1 hi.2]
    exact dispatchXfer_busLocal f u e
  · rw [xferTick_busy f _ hi] at e
    rw [xferTick_busy (s := s.withControlOf u) f _ hi]
    exact machinesTick_busLocal (some f) u e

theorem latchTick_busLocal (m : Mode) (b : Byte) : BusLocal (latchTick m b) :=
  (machinesTick_busLocal none).andThen (popDown_then_busLocal fun _ _ => rfl)

theorem discardTick_busLocal : BusLocal discardTick :=
  (machinesTick_busLocal none).andThen popDown_busLocal

theorem busStep_busLocal : BusLocal busStep := by
  intro s t u e
  rw [busStep_eq] at e ⊢
  rw [withControlOf_downq, withControlOf_cfg]
  cases hf : s.downq.head? with
  | none =>
    simp only [hf] at e
    exact machinesTick_busLocal none u e
  | some f =>
    simp only [hf] at e ⊢
    split at e
    · exact discardTick_busLocal u e
    · exact xferTick_busLocal f u e
    · exact latchTick_busLocal _ f.data u e

/-- Settles O52: a bus tick neither reads nor writes the control side, so the other state's may be put in its
place. -/
theorem busTickIgnoresControlSide : Obligations.BusTickIgnoresControlSide := by
  intro s u t b hb hd hq hc e
  have hu : (s.withBus b).withControlOf u = u.withBus b :=
    SameBus.withControlOf_eq (s := s.withBus b) (u := u.withBus b)
      ⟨hb.fcfg, hb.writer, hb.reader, hb.sampler, hb.datapath, hb.pads, rfl⟩ hd hq hc
  refine ⟨t.withControlOf u, ?_, .withControlOf t u, rfl, rfl, .withControlOf t u⟩
  rw [busTick, ← hu]
  exact busStep_busLocal u e

/-- Settles O51: a control tick is a control move, and a bus tick does not write the control side. -/
theorem sidesShareOnlyTheQueues : Obligations.SidesShareOnlyTheQueues := by
  intro s t e he
  refine ⟨?_, ?_, ?_⟩
  · rintro ⟨c, rfl⟩
    have start : SameBus s (s.withCtl c) := .of_control s ..
    exact start.trans (controlStep_move he).1.bus
  · rintro ⟨b, rfl⟩
    have start : SameControl s (s.withBus b) := .withControlOf (s.withBus b) s
    exact start.trans (busStep_busLocal.sameControl he)
  · rintro ⟨q, rfl | rfl⟩ <;> cases he <;> cases q <;> exact ⟨.of_control s .., .of_bus s ..⟩

end Sys2Proof.Machine
end

section
/-! PROOFS. What only an accepted command undoes: the descriptor and the flags (R30 to R35, R352), part by part
of a step. -/

namespace Sys2Proof.Machine

/-! Keeping the flags. -/

/-- The descriptor stays, and a flag that is set stays set (R30, R32, R33). -/
structure KeepsFlags (s t : State) : Prop where
  desc : t.desc = s.desc
  cmdDone : s.cmdf.done = true → t.cmdf.done = true
  cmdTimeout : s.cmdf.timeout = true → t.cmdf.timeout = true
  cmdCrcEn : s.cmdf.crcEn = true → t.cmdf.crcEn = true
  dataDone : s.dataf.done = true → t.dataf.done = true
  dataTimeout : s.dataf.timeout = true → t.dataf.timeout = true
  dataWerr : s.dataf.werr = true → t.dataf.werr = true
  dataCrcerr : s.dataf.crcerr = true → t.dataf.crcerr = true

theorem KeepsFlags.of_eq {s t : State} (hd : t.desc = s.desc) (hc : t.cmdf = s.cmdf)
    (hf : t.dataf = s.dataf) : KeepsFlags s t := by
  constructor <;> simp [hd, hc, hf]

theorem KeepsFlags.refl (s : State) : KeepsFlags s s := .of_eq rfl rfl rfl

theorem KeepsFlags.trans {s t u : State} (h : KeepsFlags s t) (h' : KeepsFlags t u) : KeepsFlags s u where
  desc := h'.desc.trans h.desc
  cmdDone := h'.cmdDone ∘ h.cmdDone
  cmdTimeout := h'.cmdTimeout ∘ h.cmdTimeout
  cmdCrcEn := h'.cmdCrcEn ∘ h.cmdCrcEn
  dataDone := h'.dataDone ∘ h.dataDone
  dataTimeout := h'.dataTimeout ∘ h.dataTimeout
  dataWerr := h'.dataWerr ∘ h.dataWerr
  dataCrcerr := h'.dataCrcerr ∘ h.dataCrcerr

/-! The orchestrator's own step. -/

/-- An error latches its flag and clears none (R340, R350). -/
theorem raise_keepsFlags (e : ErrorKind) (s : State) : KeepsFlags s (raise e s) := by
  cases e <;> constructor <;> simp +contextual [raise]

theorem endBlock_keepsFlags (s : State) : KeepsFlags s (endBlock s) := by
  rcases endBlock_cases s with ⟨_, e⟩ | ⟨_, e⟩ <;> rw [e]
  · constructor <;> simp
  · exact .of_eq rfl rfl rfl

theorem streamField_keepsFlags {f : CfgField} {s t : State} (e : streamField f s = .next t) :
    KeepsFlags s t := by
  obtain ⟨_, _, ⟨_, rfl⟩ | ⟨_, _, rfl⟩ | ⟨_, _, rfl⟩⟩ := streamField_eq_next e <;> exact .of_eq rfl rfl rfl

theorem sendCommand_keepsFlags {s t : State} (e : sendCommand s = .next t) : KeepsFlags s t := by
  obtain ⟨_, _, ⟨_, rfl⟩ | ⟨_, _, rfl⟩ | ⟨_, _, _, rfl⟩ | ⟨_, _, _, rfl⟩⟩ := sendCommand_eq_next e
  · exact .refl _
  · exact .of_eq rfl rfl rfl
  · constructor <;> simp
  · exact .of_eq rfl rfl rfl

theorem sendRequest_keepsFlags (fr : Frame) (s : State) : KeepsFlags s (sendRequest fr s) := by
  rcases sendRequest_cases fr s with ⟨_, _, e⟩ | ⟨_, e⟩ <;> rw [e] <;> exact .of_eq rfl rfl rfl

theorem sendBlockByte_keepsFlags (s : State) : KeepsFlags s (sendBlockByte s) := by
  rcases sendBlockByte_cases s with e | ⟨_, b, last, _, e⟩ <;> rw [e]
  · exact .of_eq rfl rfl rfl
  · cases last with
    | false => exact .of_eq rfl rfl rfl
    | true =>
      have push : ∀ o g f, KeepsFlags s { s with out := o, gen := g, downq := s.downq.push f } :=
        fun _ _ _ => .of_eq rfl rfl rfl
      exact (push ..).trans (endBlock_keepsFlags _)

theorem emit_keepsFlags {s t : State} (e : emit s = .next t) : KeepsFlags s t := by
  unfold emit at e
  split at e
  · cases e; exact .refl s
  · exact streamField_keepsFlags e
  · exact streamField_keepsFlags e
  · exact streamField_keepsFlags e
  · exact streamField_keepsFlags e
  · exact sendCommand_keepsFlags e
  · cases e; exact sendRequest_keepsFlags _ s
  · cases e; exact sendRequest_keepsFlags _ s
  · cases e; exact sendBlockByte_keepsFlags s

theorem takeResponse_keepsFlags (f : Frame) (s : State) : KeepsFlags s (takeResponse f s) := by
  by_cases hs : f.status = Status.timeout.code
  · rw [takeResponse_timeout s hs]
    exact raise_keepsFlags _ s
  · cases hl : f.last with
    | false =>
      rw [takeResponse_byte s hs hl]
      exact .of_eq rfl rfl rfl
    | true =>
      rw [takeResponse_last s hs hl]
      simp only
      split_ifs <;> constructor <;> simp

theorem checkerTake_keepsFlags (b : Byte) (s : State) : KeepsFlags s (checkerTake b s) := by
  cases hp : s.chk.phase with
  | payload => rw [checkerTake_payload b hp]; exact .of_eq rfl rfl rfl
  | crcHi => rw [checkerTake_crcHi b hp]; exact .of_eq rfl rfl rfl
  | crcLo => rw [checkerTake_crcLo b hp]; constructor <;> simp +contextual

theorem takeBlockByte_keepsFlags (f : Frame) (s : State) : KeepsFlags s (takeBlockByte f s) := by
  unfold takeBlockByte
  split
  · exact raise_keepsFlags _ s
  · have h : KeepsFlags s (if f.status = Status.ok.code then checkerTake f.data s else s) := by
      split
      · exact checkerTake_keepsFlags _ s
      · exact .refl s
    refine h.trans ?_
    generalize (if f.status = Status.ok.code then checkerTake f.data s else s) = u
    simp only
    split_ifs
    · exact endBlock_keepsFlags u
    · exact (endBlock_keepsFlags u).trans (.of_eq rfl rfl rfl)
    · exact .refl u

theorem inspectAck_keepsFlags (f : Frame) (s : State) : KeepsFlags s (inspectAck f s) := by
  unfold inspectAck
  split
  · exact .refl s
  · exact raise_keepsFlags _ s

theorem consume_keepsFlags {s t : State} (e : consume s = .next t) : KeepsFlags s t := by
  have pop : KeepsFlags s { s with upq := s.upq.pop } := .of_eq rfl rfl rfl
  rw [consume_eq] at e
  split at e
  · cases e; exact .refl s
  · rename_i f _
    rcases consumeUp_eq_next e with rfl | ⟨_, ⟨_, _, rfl⟩ | ⟨_, rfl⟩ | ⟨_, _, rfl⟩ | ⟨_, rfl⟩⟩
    · exact .refl _
    · exact pop
    · exact pop.trans (takeResponse_keepsFlags f _)
    · exact pop.trans (takeBlockByte_keepsFlags f _)
    · exact pop.trans (inspectAck_keepsFlags f _)

theorem orchTick_keepsFlags {s t : State} (e : orchTick s = .next t) : KeepsFlags s t := by
  by_cases h0 : s.ostate = .idle
  · rw [orchTick_idle h0] at e
    exact consume_keepsFlags e
  · by_cases hr : s.ostate = .recvResp ∨ s.ostate = .recvData
    · rw [orchTick_receiving hr] at e
      obtain ⟨u, hu, e⟩ := andThen_eq_next.mp e
      exact (emit_keepsFlags hu).trans (consume_keepsFlags e)
    · rw [orchTick_sending h0 (fun h => hr (.inl h)) (fun h => hr (.inr h))] at e
      obtain ⟨u, hu, e⟩ := andThen_eq_next.mp e
      exact (consume_keepsFlags hu).trans (emit_keepsFlags e)

/-! The host's part, the triggers, and the whole step. -/

theorem HostWrote.keepsFlags {s t : State} (h : HostWrote s t) : KeepsFlags s t := by
  obtain ⟨_, _, _, rfl⟩ := h
  exact .of_eq rfl rfl rfl

/-- A serviced trigger is an accepted command, or it keeps the flags (R143 to R147). -/
theorem serviceTrigger_keepsFlags {tr : Trigger} {s t : State} (e : serviceTrigger tr s = .next t) :
    t.ostate = .sendCmd ∨ KeepsFlags s t := by
  rcases serviceTrigger_eq_next e with ⟨_, e⟩ | ⟨f, rfl⟩
  · obtain ⟨_, _, rfl⟩ := issueCommand_eq_next e
    exact .inl rfl
  · exact .inr (.of_eq rfl rfl rfl)

theorem idleStep_keepsFlags {s t : State} (e : idleStep s = .next t) :
    t.ostate = .sendCmd ∨ KeepsFlags s t := by
  rcases idleStep_cases e with h | ⟨u, v, tr, hu, hv, ht⟩
  · exact .inr h.keepsFlags
  · rcases serviceTrigger_keepsFlags hv with ho | hk
    · exact .inl (ht.ostate_eq.trans ho)
    · exact .inr ((hu.keepsFlags.trans hk).trans ht.keepsFlags)

/-- A control tick leaves IDLE for SEND_CMD, or it keeps the flags (R35, R352). -/
theorem controlStep_keepsFlags {s t : State} (e : controlStep s = .next t) :
    (s.ostate = .idle ∧ t.ostate = .sendCmd) ∨ KeepsFlags s t := by
  rcases controlStep_cases e with ⟨ho, u, hu, hi⟩ | ⟨_, u, hu, ht⟩
  · have hsu : KeepsFlags s u := by rcases hu with rfl | ⟨_, rfl⟩ <;> exact .of_eq rfl rfl rfl
    exact (idleStep_keepsFlags hi).imp (⟨ho, ·⟩) hsu.trans
  · exact .inr ((orchTick_keepsFlags hu).trans ht.keepsFlags)

theorem SameControl.keepsFlags {s t : State} (h : SameControl s t) : KeepsFlags s t :=
  .of_eq h.desc h.cmdf h.dataf

theorem runEvent_keepsFlags {e : Event} {s t : State} (hr : e ≠ .reset) (he : runEvent e s = .next t) :
    (s.ostate = .idle ∧ t.ostate = .sendCmd) ∨ KeepsFlags s t := by
  obtain ⟨_, bus, sync⟩ := sidesShareOnlyTheQueues s t e he
  cases e with
  | control c =>
    have start : KeepsFlags s (s.withCtl c) := .of_eq rfl rfl rfl
    exact (controlStep_keepsFlags (s := s.withCtl c) he).imp id start.trans
  | bus b => exact .inr (bus ⟨b, rfl⟩).keepsFlags
  | syncVis q => exact .inr (sync ⟨q, .inl rfl⟩).2.keepsFlags
  | syncCred q => exact .inr (sync ⟨q, .inr rfl⟩).2.keepsFlags
  | reset => exact absurd rfl hr

/-- Settles O55: every part of a step but the service of a `command` trigger in IDLE keeps the flags. -/
theorem onlyACommandClearsFlags : Obligations.OnlyACommandClearsFlags := by
  intro s t hr e hn
  obtain ⟨h1, h2, h3, h4, h5, h6, h7, h8⟩ := (runEvent_keepsFlags hr e).resolve_left hn
  exact ⟨h1, h2, h3, h4, h5, h6, h7, h8⟩

end Sys2Proof.Machine
end

section
/-! PROOFS. Reset (R53, R380), and the invariant along steps. -/

namespace Sys2Proof.Machine

/-- Settles O57: each of the five events keeps the invariant (`runEvent_keeps_inv`). -/
theorem stepKeepsInv : Obligations.StepKeepsInv := fun _ _ => step_keeps_inv

/-- Settles O56: the queues are empty, the machines idle, and DATAPATH owns no frame. -/
theorem invAfterReset : Obligations.InvAfterReset := fun _ env n hc => resetWith_inv hc env n

/-- Settles O47: each element of the reset state, by its definition. -/
theorem resetValues : Obligations.ResetValues := by
  refine ⟨rfl, rfl, rfl, rfl, ?_, rfl, ?_, rfl, rfl, rfl, rfl, rfl, rfl, rfl, rfl, rfl, rfl, rfl, rfl, rfl⟩
  · decide
  · decide

end Sys2Proof.Machine
end

section
/-! PROOFS. The configuration latch takes over what a configuration state streams (R66, R108, R224): a field
is the fold of its byte writes, in any order that names every byte. -/

namespace Sys2Proof.Machine

/-! A field put together from its bytes. -/

/-- `u`'s byte `k` written over `v`'s. -/
def copyByte {w : Nat} (u v : BitVec w) (k : Nat) : BitVec w := setByteAt v k (byteAt u k)

/-- Copying the listed bytes sets just these. -/
theorem byteAt_foldl_copyByte {w : Nat} (u : BitVec w) (k : Nat) : ∀ (l : List Nat) (v : BitVec w),
    (∀ j ∈ l, 8 * j + 8 ≤ w) →
    byteAt (l.foldl (copyByte u) v) k = if k ∈ l then byteAt u k else byteAt v k
  | [], v, _ => by simp
  | j :: l, v, hl => by
    have hj : byteAt (copyByte u v j) k = if k = j then byteAt u k else byteAt v k := by
      split_ifs with h
      · rw [h]; exact byteAt_setByteAt_same v j _ (hl j List.mem_cons_self)
      · exact byteAt_setByteAt_other v j k _ h
    rw [List.foldl_cons,
      byteAt_foldl_copyByte u k l _ fun i hi => hl i (List.mem_cons_of_mem _ hi), hj]
    by_cases h : k = j <;> simp [h]

/-- The offsets of a field of `n` bytes name each of its bytes, in both orders (R66). -/
theorem mem_map_byteIndex (o : CfgByteOrder) {n k : Nat} :
    k ∈ (List.range n).map (byteIndex o n) ↔ k < n := by
  simp only [List.mem_map, List.mem_range]
  cases o with
  | lsbFirst => exact ⟨fun ⟨j, hj, e⟩ => e ▸ hj, fun h => ⟨k, h, rfl⟩⟩
  | msbFirst =>
    constructor
    · rintro ⟨j, hj, rfl⟩; show n - 1 - j < n; omega
    · intro h; exact ⟨n - 1 - k, by omega, by show n - 1 - (n - 1 - k) = k; omega⟩

/-- A field whose bytes are all copied, in either order, is the field it is copied from (R66, R224). -/
theorem foldl_copyByte_byteIndex (o : CfgByteOrder) {w n : Nat} (hw : w = 8 * n) (u v : BitVec w) :
    ((List.range n).map (byteIndex o n)).foldl (copyByte u) v = u := by
  refine eq_of_byteAt_eq fun k hk => ?_
  rw [byteAt_foldl_copyByte u k _ v fun j hj => by rw [mem_map_byteIndex] at hj; omega,
    if_pos (by rw [mem_map_byteIndex]; omega)]

/-- A byte of a register carried on wider lines is the register's own (R173 to R176). -/
theorem byteAt_setWidth {w n : Nat} (v : BitVec w) (h : w ≤ n) (k : Nat) :
    byteAt (v.setWidth n) k = byteAt v k := by
  apply BitVec.eq_of_getLsbD_eq
  intro i hi
  rw [getLsbD_byteAt, getLsbD_byteAt, BitVec.getLsbD_setWidth]
  by_cases hn : 8 * k + i < n
  · simp [hn]
  · rw [BitVec.getLsbD_of_ge v _ (by omega), Bool.and_false]

/-! The frames of a field. -/

/-- The frame of byte `k` of a field names that byte's mode and carries it (R108, R172). -/
theorem fieldFrame_of_mode {c : Config} (h : HostRegs) {f : CfgField} {k : Nat} {m : Mode}
    (hm : f.modes[k]? = some m) : ∃ fr, fieldFrame c h f k = some fr ∧
      fr.modeBits = c.modes.code m ∧
      fr.data = byteAt (f.value h) (byteIndex c.byteOrder f.modes.length k) := by
  unfold fieldFrame
  rw [hm]
  exact ⟨_, rfl, modeBits_tag .., rfl⟩

/-- Settles O12: each frame copies the byte it names (`fieldFrame_of_mode`), and the copies of all bytes, in
either order, make up the field (`foldl_copyByte_byteIndex`). -/
theorem configFieldReachesFramer : Obligations.ConfigFieldReachesFramer := by
  intro c h r hi latch
  have latch_eq : ∀ (f : CfgField) (r : FramerRegs) (k : Nat) (m : Mode), f.modes[k]? = some m →
      latch f r k = latchByte c.byteOrder m
        (byteAt (f.value h) (byteIndex c.byteOrder f.modes.length k)) r := by
    intro f r k m hm
    obtain ⟨fr, hf, hb, hd⟩ := fieldFrame_of_mode (c := c) h hm
    simp only [latch, hf, hb, ModeEncoding.mode?_code hi, hd]
  refine ⟨?_, ?_, ?_, ?_⟩
  · simp only [List.foldl, latch_eq .cmdtimeout _ 0 .tc0 rfl, latch_eq .cmdtimeout _ 1 .tc1 rfl,
      latch_eq .cmdtimeout _ 2 .tc2 rfl, latch_eq .cmdtimeout _ 3 .tc3 rfl]
    exact congrArg (fun v => { r with cmdtimeout := v })
      (foldl_copyByte_byteIndex c.byteOrder (n := 4) rfl h.cmdtimeout r.cmdtimeout)
  · simp only [List.foldl, latch_eq .datatimeout _ 0 .td0 rfl, latch_eq .datatimeout _ 1 .td1 rfl,
      latch_eq .datatimeout _ 2 .td2 rfl, latch_eq .datatimeout _ 3 .td3 rfl]
    exact congrArg (fun v => { r with datatimeout := v })
      (foldl_copyByte_byteIndex c.byteOrder (n := 4) rfl h.datatimeout r.datatimeout)
  · simp only [List.foldl, latch_eq .blocksize _ 0 .bs0 rfl, latch_eq .blocksize _ 1 .bs1 rfl,
      CfgField.value, byteAt_setWidth h.blocksize (by decide : 16 ≤ 32)]
    exact congrArg (fun v => { r with blocksize := v })
      (foldl_copyByte_byteIndex c.byteOrder (n := 2) rfl h.blocksize r.blocksize)
  · have h0 : byteIndex c.byteOrder CfgField.voltage.modes.length 0 = 0 := by cases c.byteOrder <;> rfl
    simp only [List.foldl, latch_eq .voltage _ 0 .volt rfl, h0, CfgField.value,
      byteAt_setWidth h.voltage (by decide : 8 ≤ 32), latchByte, getLsbD_byteAt]
    rfl

end Sys2Proof.Machine
end

section
/-! PROOFS. Runs of bus ticks with one XFER frame at the head: the writer puts a byte on the command line
(R238, R240), and the reader assembles one from it (R246, R253). -/

namespace Sys2Proof.Machine

/-! Runs. -/

theorem busRun_cons {i : BusIn} {rest : List BusIn} {s t u : State} {pads : List Pads}
    (ht : busTick i s = .next t) (hu : busRun rest t = .next (u, pads)) :
    busRun (i :: rest) s = .next (u, t.pads :: pads) := by
  rw [busRun, ht, andThen_next, hu, andThen_next]

/-- The block drives the line in a clocked tick of its own (R222). -/
theorem drivenBits_drivePads (s : State) (b : Bool) (l : List Pads) :
    drivenBits (drivePads s b :: l) = b :: drivenBits l := rfl

/-- The safe idle state is not clocked (R222). -/
theorem drivenBits_idlePads (s : State) (l : List Pads) :
    drivenBits (idlePads s :: l) = drivenBits l := rfl

/-! One tick with an XFER frame at the head. -/

section
variable {s : State} {f : Frame} (i : BusIn) (hi : s.cfg.modes.injective = true)
  (hf : s.downq.head? = some f)
include hi hf

/-- The dispatch of a command byte after the preamble has run (R223, R238). -/
theorem busTick_startsByte (ht : f.ctrl = tag s.cfg.modes .cmd .write .xfer) (hw : s.writer.st = .idle)
    (hr : s.reader.st = .idle) (hd : s.writer.initDone = true) :
    busTick i s = .next { idleTick (s.withBus i) with
      writer := { s.writer with st := .cmdWrite, bit := 0 } } := by
  have h0 : f.ctrl.getLsbD 0 = false := by rw [ht, tag_channel]; rfl
  have h1 : f.ctrl.getLsbD 1 = true := by rw [ht, tag_direction]; rfl
  have hs : s.writer.start = { s.writer with st := .cmdWrite, bit := 0 } := by
    rw [Writer.start, if_pos hd]
  rw [busTick, busStep_xfer (s := s.withBus i) hi hf ht, xferTick_idle (s := s.withBus i) f _ hw hr,
    dispatchXfer]
  simp only [h0, h1, withBus_writer, hs]

/-- The writer out of IDLE is given its frame (R223, R256). -/
theorem busTick_writer {ch : Channel} {dir : Direction} (ht : f.ctrl = tag s.cfg.modes ch dir .xfer)
    (hw : s.writer.st ≠ .idle) (hr : s.reader.st = .idle) :
    busTick i s = writerTick (some f) (s.withBus i) := by
  rw [busTick, busStep_xfer (s := s.withBus i) hi hf ht, xferTick_busy (s := s.withBus i) f _ fun h => hw h.1,
    machinesTick_writer (s := s.withBus i) _ hw hr]

/-- The reader out of IDLE runs on beside its request (R223, R256). -/
theorem busTick_reader {ch : Channel} {dir : Direction} (ht : f.ctrl = tag s.cfg.modes ch dir .xfer)
    (hw : s.writer.st = .idle) (hr : s.reader.st ≠ .idle) :
    busTick i s = readerTick (s.withBus i) := by
  rw [busTick, busStep_xfer (s := s.withBus i) hi hf ht, xferTick_busy (s := s.withBus i) f _ fun h => hr h.2,
    machinesTick_reader (s := s.withBus i) _ hw]

end

/-! The command writer. -/

/-- CMD_WRITE from any bit on: the bits that are left are driven, most significant first, and the frame is
popped in the tick of the last (R240). -/
theorem busRun_writesBits {f : Frame} : ∀ (inputs : List BusIn) (s : State),
    s.cfg.modes.injective = true → s.downq.head? = some f →
    f.ctrl = tag s.cfg.modes .cmd .write .xfer → s.writer.st = .cmdWrite → s.reader.st = .idle →
    inputs.length + s.writer.bit.toNat = 8 →
    ∃ t pads, busRun inputs s = .next (t, pads) ∧
      drivenBits pads = bitsMsbFirst f.data inputs.length ∧
      t.downq = s.downq.pop ∧ t.upq = s.upq ∧ t.writer.st = (if f.last then .cmdClk8 else .idle)
  | [], s, _, _, _, _, _, hn => by have := s.writer.bit.isLt; simp at hn; omega
  | i :: rest, s, hi, hf, ht, hw, hr, hn => by
    rw [List.length_cons] at hn
    have hbusy : s.writer.st ≠ .idle := by rw [hw]; decide
    have hbit : 7 - s.writer.bit.toNat = rest.length := by omega
    have tick := busTick_writer i hi hf ht hbusy hr
    by_cases hb : s.writer.bit = 7
    · have hnil : rest = [] := List.eq_nil_of_length_eq_zero (by rw [← hbit, hb]; rfl)
      subst hnil
      rw [writerTick_lastBit (s := s.withBus i) f hw hb hf] at tick
      refine ⟨_, _, busRun_cons tick rfl, rfl, rfl, rfl, ?_⟩
      show (s.writer.byteDone f.last).st = _
      rw [Writer.byteDone]
      split_ifs <;> rfl
    · have hlt : s.writer.bit.toNat ≠ 7 := fun h => hb (BitVec.eq_of_toNat_eq h)
      rw [writerTick_bit (s := s.withBus i) f hw hb] at tick
      obtain ⟨t, pads, hrun, hbits, rest_done⟩ := busRun_writesBits rest
        { s.withBus i with
          sampler := .off
          pads := drivePads (s.withBus i) (f.data.getLsbD (7 - s.writer.bit.toNat))
          writer := { s.writer with bit := s.writer.bit + 1 } } hi hf ht hw hr
        (by show rest.length + (s.writer.bit + 1).toNat = 8; bv_omega)
      refine ⟨t, _, busRun_cons tick hrun, ?_, rest_done⟩
      rw [withBus_writer, hbit, drivenBits_drivePads, hbits]
      rfl

/-- Settles O16: after the unclocked tick of dispatch, the writer drives the eight bits
(`busRun_writesBits`). -/
theorem commandByteReachesTheLine : Obligations.CommandByteReachesTheLine := by
  rintro s f (_ | ⟨i, rest⟩) hi hw hd hr hf ht hn
  · cases hn
  have hrest : rest.length = 8 := Nat.succ.inj hn
  obtain ⟨t, pads, hrun, hbits, done⟩ := busRun_writesBits rest
    { idleTick (s.withBus i) with writer := { s.writer with st := .cmdWrite, bit := 0 } }
    hi hf ht rfl hr hrest
  refine ⟨t, _, busRun_cons (busTick_startsByte i hi hf ht hw hr hd) hrun, ?_, done⟩
  rw [idleTick_pads, drivenBits_idlePads, hbits, hrest]
  rfl

/-! The command reader. -/

/-- The low `n` bits of `x` are the `n` most significant bits of `b`: what the sampler holds of byte `b` when
it has sampled `n` bits of it. -/
def HoldsTop (n : Nat) (b x : Byte) : Prop := ∀ j < n, x.getLsbD j = b.getLsbD (8 - n + j)

/-- The next bit of the byte, shifted in (R253). -/
theorem HoldsTop.shiftIn {n : Nat} {b x : Byte} (h : HoldsTop n b x) (hn : n < 8) :
    HoldsTop (n + 1) b (x.extractLsb' 0 7 ++ BitVec.ofBool (b.getLsbD (7 - n))) := by
  intro j hj
  show (BitVec.concat (x.extractLsb' 0 7) _).getLsbD j = _
  rw [BitVec.getLsbD_concat]
  cases j with
  | zero => rw [if_pos rfl, show 8 - (n + 1) + 0 = 7 - n by omega]
  | succ j =>
    rw [if_neg (Nat.succ_ne_zero j), Nat.add_sub_cancel, BitVec.getLsbD_extractLsb', Nat.zero_add,
      decide_eq_true (by omega), Bool.true_and, h j (by omega),
      show 8 - (n + 1) + (j + 1) = 8 - n + j by omega]

/-- Eight bits of a byte are the byte. -/
theorem HoldsTop.eq {b x : Byte} (h : HoldsTop 8 b x) : x = b :=
  BitVec.eq_of_getLsbD_eq fun j hj => (h j hj).trans (by rw [Nat.sub_self, Nat.zero_add])

/-- A bit that completes no byte (R253). -/
theorem Sampler.sample_more {x : Sampler} (b : Bool) (hx : x.st = .read) (hc : x.cnt ≠ 7) :
    x.sample b =
      ({ x with shift := x.shift.extractLsb' 0 7 ++ BitVec.ofBool b, cnt := x.cnt + 1 }, none) := by
  rw [Sampler.sample, hx]
  exact if_neg hc

/-- The bit that completes a byte (R253). -/
theorem Sampler.sample_last {x : Sampler} (b : Bool) (hx : x.st = .read) (hc : x.cnt = 7) :
    x.sample b = ({ x with shift := x.shift.extractLsb' 0 7 ++ BitVec.ofBool b, cnt := 0 },
      some (x.shift.extractLsb' 0 7 ++ BitVec.ofBool b)) := by
  rw [Sampler.sample, hx]
  exact if_pos hc

/-- CMD_READ from any bit of a byte on: the bits that are left complete it, and it is pushed in the tick of
the last; the byte is not the last of the request, which stays (R246, R253). -/
theorem busRun_readsBits {f : Frame} {byte : Byte} : ∀ (inputs : List BusIn) (s : State),
    s.cfg.modes.injective = true → s.downq.head? = some f →
    f.ctrl = tag s.cfg.modes .cmd .read .xfer → s.writer.st = .idle → s.reader.st = .cmdRead →
    s.reader.lastByte s.cfg = false → s.sampler.st = .read → s.upq.ready = true →
    inputs.length + s.sampler.cnt.toNat = 8 → HoldsTop s.sampler.cnt.toNat byte s.sampler.shift →
    inputs.map BusIn.cmdI = bitsMsbFirst byte inputs.length →
    ∃ t pads, busRun inputs s = .next (t, pads) ∧
      t.upq = s.upq.push { data := byte, ctrl := 0x00, last := false } ∧
      t.downq = s.downq ∧ t.reader = { s.reader with cread := s.reader.cread + 1 } ∧
      t.sampler = { st := .read, shift := byte, cnt := 0 } ∧ (∀ p ∈ pads, p.clkEn = true)
  | [], s, _, _, _, _, _, _, _, _, hn, _, _ => by have := s.sampler.cnt.isLt; simp at hn; omega
  | i :: rest, s, hi, hf, ht, hw, hr, hl, hx, hq, hn, htop, hbits => by
    rw [List.length_cons] at hn
    obtain ⟨hcmd, hbits⟩ := List.cons.inj hbits
    have hbusy : s.reader.st ≠ .idle := by rw [hr]; decide
    have hlen : rest.length = 7 - s.sampler.cnt.toNat := by omega
    have hnext := htop.shiftIn (by omega)
    rw [← hlen, ← hcmd] at hnext
    have tick := busTick_reader i hi hf ht hw hbusy
    by_cases hc : s.sampler.cnt = 7
    · have hnil : rest = [] := List.eq_nil_of_length_eq_zero (by rw [hlen, hc]; rfl)
      subst hnil
      rw [hc] at hnext
      have hs := s.sampler.sample_last i.cmdI hx hc
      rw [hnext.eq, hx] at hs
      rw [readerTick_byte (s := s.withBus i) (b := byte) hr hq (congrArg Prod.snd hs)] at tick
      refine ⟨_, _, busRun_cons (tick.trans (forwardByte_more byte hl)) rfl, rfl, rfl, rfl,
        congrArg Prod.fst hs, ?_⟩
      exact List.forall_mem_singleton.mpr rfl
    · have hlt : s.sampler.cnt.toNat ≠ 7 := fun h => hc (BitVec.eq_of_toNat_eq h)
      have hcnt : (s.sampler.cnt + 1).toNat = s.sampler.cnt.toNat + 1 := by bv_omega
      have hs := s.sampler.sample_more i.cmdI hx hc
      rw [readerTick_sample (s := s.withBus i) hr hq (congrArg Prod.snd hs)] at tick
      obtain ⟨t, pads, hrun, hup, hdown, hreader, hsampler, hclk⟩ := busRun_readsBits rest
        { s.withBus i with pads := releasePads (s.withBus i) true, sampler := (s.sampler.sample i.cmdI).1 }
        hi hf ht hw hr hl (by simp only [hs]; exact hx) hq (by simp only [hs, hcnt]; omega)
        (by simp only [hs, hcnt]; exact hnext) hbits
      exact ⟨t, _, busRun_cons tick hrun, hup, hdown, hreader, hsampler,
        List.forall_mem_cons.mpr ⟨rfl, hclk⟩⟩

/-- Settles O22: a run of CMD_READ from the first bit of a byte (`busRun_readsBits`). -/
theorem lineBitsBecomeResponseByte : Obligations.LineBitsBecomeResponseByte := by
  intro s f byte inputs hi hw hr hl hx hc hq hf ht hbits
  have hlen : inputs.length = 8 := by rw [← List.length_map BusIn.cmdI, hbits]; rfl
  refine busRun_readsBits inputs s hi hf ht hw hr hl hx hq ?_ ?_ ?_
  · rw [hc, hlen]; rfl
  · rw [hc]; exact fun j hj => absurd hj (Nat.not_lt_zero j)
  · rw [hbits, hlen]; rfl

end Sys2Proof.Machine
end

section
/-! PROOFS. Encoding (30_encoding.md): the decoder of each port and the encoder are read off one table per
port, so decoding undoes encoding and encoding undoes decoding. -/

namespace Sys2Proof

/-! The table of down frames. -/

/-- The row of a mode and the two low bits (R111): XFER is told apart by `{direction, channel}`, and every
other mode carries them along. -/
def downOp (m : Mode) (low : BitVec 2) (data : Byte) (last : Bool) : Instr :=
  match m with
  | .xfer =>
    match low.getLsbD 0, low.getLsbD 1 with
    | false, false => .fdCmdRd data last
    | true, false => .fdDataRd data last
    | false, true => .fdCmdWr data last
    | true, true => .fdDataWr data last
  | .tc0 => .fdCfgTc0 low data last
  | .tc1 => .fdCfgTc1 low data last
  | .tc2 => .fdCfgTc2 low data last
  | .tc3 => .fdCfgTc3 low data last
  | .td0 => .fdCfgTd0 low data last
  | .td1 => .fdCfgTd1 low data last
  | .td2 => .fdCfgTd2 low data last
  | .td3 => .fdCfgTd3 low data last
  | .bs0 => .fdCfgBs0 low data last
  | .bs1 => .fdCfgBs1 low data last
  | .volt => .fdCfgV low data last

/-- The decoder reads the mode and looks up the row (R112). -/
theorem decodeDown_of_mode {c : Config} {f : Frame} {m : Mode} (h : c.modes.mode? f.modeBits = some m) :
    decodeDown c f = .ok (downOp m f.lowBits f.data f.last) := by
  unfold decodeDown
  rw [h]
  cases m with
  | xfer =>
    have h0 : f.lowBits.getLsbD 0 = f.ctrl.getLsbD 0 := by simp [Frame.lowBits]
    have h1 : f.lowBits.getLsbD 1 = f.ctrl.getLsbD 1 := by simp [Frame.lowBits]
    unfold downOp
    rw [h0, h1]
    cases f.ctrl.getLsbD 0 <;> cases f.ctrl.getLsbD 1 <;> rfl
  | _ => rfl

theorem decodeDown_of_reserved {c : Config} {f : Frame} (h : c.modes.mode? f.modeBits = none) :
    decodeDown c f = .error (.reservedMode f.modeBits) := by
  unfold decodeDown
  rw [h]

/-- All that a down frame with an operation can be (R112). -/
theorem decodeDown_eq_ok {c : Config} {f : Frame} {i : Instr} (h : decodeDown c f = .ok i) :
    ∃ m, c.modes.mode? f.modeBits = some m ∧ i = downOp m f.lowBits f.data f.last := by
  cases hm : c.modes.mode? f.modeBits with
  | none => rw [decodeDown_of_reserved hm] at h; cases h
  | some m =>
    rw [decodeDown_of_mode hm] at h
    exact ⟨m, rfl, (Except.ok.inj h).symm⟩

/-- A value is reserved exactly if no mode has it (R121). -/
theorem ModeEncoding.mode?_eq_none {e : ModeEncoding} {v : BitVec 6} :
    e.mode? v = none ↔ ∀ m, e.code m ≠ v := by
  have hall : ∀ m, m ∈ Mode.all := by intro m; cases m <;> decide
  simp [ModeEncoding.mode?, hall]

/-- The decoder of down frames refuses the reserved modes and nothing else (R121). -/
theorem decodeDown_error_iff {c : Config} {f : Frame} :
    (∃ e, decodeDown c f = .error e) ↔ c.modes.mode? f.modeBits = none := by
  cases hm : c.modes.mode? f.modeBits with
  | none => simp [decodeDown_of_reserved hm]
  | some m => simp [decodeDown_of_mode hm]

/-- The encoder gives the row its mode and low bits (R93, R108). -/
theorem encode_downOp (c : Config) (m : Mode) (low : BitVec 2) (data : Byte) (last : Bool) :
    encode c (downOp m low data last) = .down (cfgFrame c m low data last) := by
  cases m with
  | xfer =>
    have hlow : low = 0 ∨ low = 1 ∨ low = 2 ∨ low = 3 := by revert low; decide
    rcases hlow with rfl | rfl | rfl | rfl <;> rfl
  | _ => rfl

/-- A down frame is made of its own fields (R92). -/
theorem cfgFrame_self {c : Config} {f : Frame} {m : Mode} (h : c.modes.code m = f.modeBits) :
    cfgFrame c m f.lowBits f.data f.last = f := by
  have htag : downTag f.modeBits f.lowBits = f.ctrl := BitVec.extractLsb'_append_extractLsb'
  rw [cfgFrame, h, htag]

@[simp] theorem cfgFrame_modeBits (c : Config) (m : Mode) (low : BitVec 2) (data : Byte) (last : Bool) :
    (cfgFrame c m low data last).modeBits = c.modes.code m := BitVec.extractLsb'_append_eq_left

@[simp] theorem cfgFrame_lowBits (c : Config) (m : Mode) (low : BitVec 2) (data : Byte) (last : Bool) :
    (cfgFrame c m low data last).lowBits = low := BitVec.extractLsb'_append_eq_right

/-- A frame of a row decodes to that row, with an injective mode encoding (D3). -/
theorem decode_encode_downOp {c : Config} (hi : c.modes.injective = true) (m : Mode) (low : BitVec 2)
    (data : Byte) (last : Bool) :
    decode c (encode c (downOp m low data last)) = .ok (downOp m low data last) := by
  have hm : c.modes.mode? (cfgFrame c m low data last).modeBits = some m := by
    rw [cfgFrame_modeBits, ModeEncoding.mode?_code hi]
  have hd := decodeDown_of_mode hm
  rw [cfgFrame_lowBits] at hd
  rw [encode_downOp]
  exact congrArg (Except.mapError DecodeError.frame) hd

/-! The table of up frames. -/

/-- The rows of the map of up frames (R111): status, channel, operation. -/
inductive UpRow : Status → Channel → (BitVec 3 → Byte → Bool → Instr) → Prop where
  | cmdOk : UpRow .ok .cmd .fuCmdOk
  | dataOk : UpRow .ok .data .fuDataOk
  | cmdTimeout : UpRow .timeout .cmd .fuCmdTimeout
  | dataTimeout : UpRow .timeout .data .fuDataTimeout
  | dataAccepted : UpRow .dataAccepted .data .fuDataAccepted
  | dataCrcerr : UpRow .crcError .data .fuDataCrcerr
  | dataWrerr : UpRow .writeError .data .fuDataWrerr

/-- The fields of an up tag, whatever its status (R96). -/
theorem upTag_fields (res : BitVec 3) (status : BitVec 4) (ch : Channel) :
    (upTag res status ch).extractLsb' 5 3 = res ∧ (upTag res status ch).extractLsb' 1 4 = status ∧
      (upTag res status ch).getLsbD 0 = (ch == .data) := by
  revert res status
  cases ch <;> decide

@[simp] theorem upFrame_resBits (res : BitVec 3) (st : Status) (ch : Channel) (data : Byte) (last : Bool) :
    (upFrame res st ch data last).resBits = res := (upTag_fields res st.code ch).1

@[simp] theorem upFrame_status (res : BitVec 3) (st : Status) (ch : Channel) (data : Byte) (last : Bool) :
    (upFrame res st ch data last).status = st.code := (upTag_fields res st.code ch).2.1

@[simp] theorem upFrame_channel (res : BitVec 3) (st : Status) (ch : Channel) (data : Byte) (last : Bool) :
    (upFrame res st ch data last).ctrl.getLsbD 0 = (ch == .data) := (upTag_fields res st.code ch).2.2

/-- An up frame with the channel and the status of a row is made of its own fields (R96). -/
theorem upFrame_of_fields {f : Frame} {b : Bool} {st : Status} (hb : f.ctrl.getLsbD 0 = b)
    (hs : f.status.toNat = st.code.toNat) :
    upFrame f.resBits st (channelOf b) f.data f.last = f := by
  rw [← hb]
  exact upFrame_self hs

namespace UpRow

variable {st : Status} {ch : Channel} {op : BitVec 3 → Byte → Bool → Instr}

theorem encode_eq (h : UpRow st ch op) (c : Config) (res : BitVec 3) (data : Byte) (last : Bool) :
    encode c (op res data last) = .up (upFrame res st ch data last) := by
  cases h <;> rfl

theorem decodeUp_eq (h : UpRow st ch op) (res : BitVec 3) (data : Byte) (last : Bool) :
    decodeUp (upFrame res st ch data last) = .ok (op res data last) := by
  unfold decodeUp
  rw [upFrame_channel, upFrame_status, upFrame_resBits]
  cases h <;> rfl

theorem decode_encode (h : UpRow st ch op) (c : Config) (res : BitVec 3) (data : Byte) (last : Bool) :
    decode c (encode c (op res data last)) = .ok (op res data last) := by
  rw [h.encode_eq]
  exact congrArg (Except.mapError DecodeError.frame) (h.decodeUp_eq res data last)

end UpRow

/-- All that an up frame with an operation can be (R113). -/
theorem decodeUp_eq_ok {f : Frame} {i : Instr} (h : decodeUp f = .ok i) :
    ∃ st ch op, UpRow st ch op ∧ i = op f.resBits f.data f.last ∧
      upFrame f.resBits st ch f.data f.last = f := by
  unfold decodeUp at h
  split at h <;> cases h
  all_goals rename_i hb hs
  · exact ⟨.ok, _, _, .cmdOk, rfl, upFrame_of_fields hb hs⟩
  · exact ⟨.ok, _, _, .dataOk, rfl, upFrame_of_fields hb hs⟩
  · exact ⟨.timeout, _, _, .cmdTimeout, rfl, upFrame_of_fields hb hs⟩
  · exact ⟨.timeout, _, _, .dataTimeout, rfl, upFrame_of_fields hb hs⟩
  · exact ⟨.dataAccepted, _, _, .dataAccepted, rfl, upFrame_of_fields hb hs⟩
  · exact ⟨.crcError, _, _, .dataCrcerr, rfl, upFrame_of_fields hb hs⟩
  · exact ⟨.writeError, _, _, .dataWrerr, rfl, upFrame_of_fields hb hs⟩

/-! The two directions. -/

/-- A register value survives the 32 value lines of the host port (R141). -/
theorem setWidth_hostValue {n : Nat} (h : n ≤ 32) (v : BitVec n) : (v.setWidth 32).setWidth n = v := by
  rw [BitVec.setWidth_setWidth_of_le v h, BitVec.setWidth_eq]

/-- Settles O44: a host row decodes by computation, with its value cut back to the register's width; a down
or an up row by the table of its port. -/
theorem decodeOfEncode : Obligations.DecodeOfEncode := fun c i hi =>
  match i with
  | .wrArgument _ | .wrCommand _ | .wrCmdtimeout _ | .wrDatatimeout _ => rfl
  | .wrVoltage v => congrArg (Except.ok ∘ Instr.wrVoltage) (setWidth_hostValue (by decide) v)
  | .wrBlocksize v => congrArg (Except.ok ∘ Instr.wrBlocksize) (setWidth_hostValue (by decide) v)
  | .wrBlockcount v => congrArg (Except.ok ∘ Instr.wrBlockcount) (setWidth_hostValue (by decide) v)
  | .rdResponse | .rdCmdevt | .rdDataevt => rfl
  | .fdCmdRd d l => decode_encode_downOp hi .xfer 0 d l
  | .fdDataRd d l => decode_encode_downOp hi .xfer 1 d l
  | .fdCmdWr d l => decode_encode_downOp hi .xfer 2 d l
  | .fdDataWr d l => decode_encode_downOp hi .xfer 3 d l
  | .fdCfgTc0 w d l => decode_encode_downOp hi .tc0 w d l
  | .fdCfgTc1 w d l => decode_encode_downOp hi .tc1 w d l
  | .fdCfgTc2 w d l => decode_encode_downOp hi .tc2 w d l
  | .fdCfgTc3 w d l => decode_encode_downOp hi .tc3 w d l
  | .fdCfgTd0 w d l => decode_encode_downOp hi .td0 w d l
  | .fdCfgTd1 w d l => decode_encode_downOp hi .td1 w d l
  | .fdCfgTd2 w d l => decode_encode_downOp hi .td2 w d l
  | .fdCfgTd3 w d l => decode_encode_downOp hi .td3 w d l
  | .fdCfgBs0 w d l => decode_encode_downOp hi .bs0 w d l
  | .fdCfgBs1 w d l => decode_encode_downOp hi .bs1 w d l
  | .fdCfgV w d l => decode_encode_downOp hi .volt w d l
  | .fuCmdOk r d l => UpRow.cmdOk.decode_encode c r d l
  | .fuDataOk r d l => UpRow.dataOk.decode_encode c r d l
  | .fuCmdTimeout r d l => UpRow.cmdTimeout.decode_encode c r d l
  | .fuDataTimeout r d l => UpRow.dataTimeout.decode_encode c r d l
  | .fuDataAccepted r d l => UpRow.dataAccepted.decode_encode c r d l
  | .fuDataCrcerr r d l => UpRow.dataCrcerr.decode_encode c r d l
  | .fuDataWrerr r d l => UpRow.dataWrerr.decode_encode c r d l

/-- A port hands on what its decoder answers. -/
theorem mapError_eq_ok {ε ε' α : Type} {g : ε → ε'} {x : Except ε α} {a : α}
    (h : x.mapError g = .ok a) : x = .ok a := by
  cases x with
  | error _ => cases h
  | ok _ => cases h; rfl

/-- Settles O45: the frame has the fields of the row it decodes to, and the encoder gives them back. -/
theorem encodeOfDecodedFrame : Obligations.EncodeOfDecodedFrame := by
  intro c f i
  constructor <;> intro h
  · obtain ⟨m, hm, rfl⟩ := decodeDown_eq_ok (mapError_eq_ok h)
    rw [encode_downOp, cfgFrame_self (ModeEncoding.code_of_mode? hm)]
  · obtain ⟨st, ch, op, hrow, rfl, hf⟩ := decodeUp_eq_ok (mapError_eq_ok h)
    rw [hrow.encode_eq, hf]

/-- Settles O43: the decoders compute on closed words. -/
theorem sampleWordsDecode : Obligations.SampleWordsDecode :=
  ⟨rfl, rfl, rfl, rfl, rfl, rfl, rfl, rfl, rfl, rfl, rfl, rfl⟩

end Sys2Proof
end

section
/-! PROOFS. The ticks that run the operation a frame decodes to (R112, R113, R170, R223), and the bus tick of a
frame of a reserved mode (R236). -/

namespace Sys2Proof.Machine

/-! Sequencing. -/

/-- Two continuations that agree wherever the first part answers next. -/
theorem andThen_congr {α β : Type} {o : Result α} {f g : α → Result β}
    (h : ∀ t, o = .next t → f t = g t) : andThen o f = andThen o g := by
  cases o with
  | next t => exact h t rfl
  | fault _ => rfl
  | refused _ => rfl

/-- A continuation that keeps what the first part answers. -/
theorem andThen_eq_self {α : Type} {o : Result α} {f : α → Result α}
    (h : ∀ t, o = .next t → f t = .next t) : andThen o f = o := by
  cases o with
  | next t => exact h t rfl
  | fault _ => rfl
  | refused _ => rfl

/-! The bus tick. -/

theorem busStep_of_decodeDown {s : State} {f : Frame} {i : Instr} (hf : s.downq.head? = some f)
    (hd : decodeDown s.cfg f = .ok i) : busStep s = exec i s := by
  unfold busStep
  simp only [hf, hd]

/-- Settles O8: the tick begins in `busStart`, with the same head and the same parameters. -/
theorem stepRunsDownOperation : Obligations.StepRunsDownOperation := fun s b _ _ hf hd =>
  (step_bus b s).trans (busStep_of_decodeDown (s := busStart b s) hf hd)

/-- A frame of a reserved mode with both machines IDLE: it is popped (R236). -/
theorem discardTick_idle {s : State} {g : Frame} (hw : s.writer.st = .idle) (hr : s.reader.st = .idle)
    (hg : s.downq.head? = some g) :
    discardTick s = .next { idleTick s with downq := s.downq.pop } := by
  unfold discardTick
  rw [machinesTick_idle none hw hr, andThen_next, popDown_of_head (s := idleTick s) hg]
  rfl

/-- Settles O46: a mode is reserved exactly if the encoding gives its value to no mode, and the tick of such a
frame is `discardTick`. -/
theorem reservedModesAreDiscarded : Obligations.ReservedModesAreDiscarded := by
  intro s b f hf
  refine ⟨decodeDown_error_iff.trans ModeEncoding.mode?_eq_none, fun hm hw hr => ?_⟩
  have hnone : s.cfg.modes.mode? f.modeBits = none := ModeEncoding.mode?_eq_none.mpr hm
  have htick : busStep (busStart b s) = discardTick (busStart b s) := by
    rw [busStep_eq, busStart_downq, hf]
    simp only [busStart_cfg, hnone]
  rw [step_bus, htick, discardTick_idle (s := busStart b s) hw hr hf]
  rfl

/-! The control tick without a host access. -/

theorem consume_of_decodeUp {s : State} {f : Frame} {i : Instr} (hf : s.upq.head? = some f)
    (hd : decodeUp f = .ok i) : consume s = exec i s :=
  (consume_some hf).trans (exec_of_decodeUp hd s).symm

/-- The producer port of `DOWNQ` does not touch `UPQ` (R20). -/
theorem emit_upq {s t : State} (e : emit s = .next t) : t.upq = s.upq := by
  obtain ⟨_, hup, _⟩ := emit_move e
  exact hup

/-- With no head at `UPQ` the orchestrator's step is its producer port (R170). -/
theorem orchTick_noHead {s : State} (hf : s.upq.head? = none) (ho : s.ostate ≠ .idle) :
    orchTick s = emit s := by
  by_cases hr : s.ostate = .recvResp ∨ s.ostate = .recvData
  · rw [orchTick_receiving hr]
    exact andThen_eq_self fun t e => consume_none (by rw [emit_upq e, hf])
  · rw [orchTick_sending ho (fun h => hr (.inl h)) (fun h => hr (.inr h)), consume_none hf, andThen_next]

/-- In IDLE with no host access and nothing pending, the tick is the consumer port (R171). -/
theorem controlStep_idle_alone {s : State} (hh : s.cin.host = none) (ho : s.ostate = .idle)
    (hp : s.pending = []) : controlStep s = consume s := by
  rw [controlStep_idle ho, orchTick_idle ho]
  refine andThen_eq_self fun t e => ?_
  have alone : ∀ u : State, u.cin.host = none → u.ostate = .idle → u.pending = [] →
      idleStep u = .next u := fun u hh ho hp => (idleStep_noPending hp ho).trans (hostPart_none hh)
  rcases consume_idle ho with hc | ⟨_, _, hc⟩ <;> rw [hc] at e <;> cases e
  · exact alone _ hh ho hp
  · exact alone _ hh ho hp

/-- The service of a trigger writes neither the host registers nor the read data (R141). -/
theorem serviceTrigger_host {tr : Trigger} {s t : State} (e : serviceTrigger tr s = .next t) :
    t.host = s.host ∧ t.out = s.out := by
  rcases serviceTrigger_eq_next e with ⟨_, h⟩ | ⟨f, rfl⟩
  · obtain ⟨_, _, rfl⟩ := issueCommand_eq_next h
    exact ⟨rfl, rfl⟩
  · exact ⟨rfl, rfl⟩

/-- In IDLE with no host access, the oldest pending trigger is all of the tick but the consumer port (R12). -/
theorem idleStep_pending {s : State} {tr : Trigger} {rest : List Trigger} (hh : s.cin.host = none)
    (ho : s.ostate = .idle) (hp : s.pending = tr :: rest) :
    idleStep s = serviceTrigger tr { s with pending := rest } := by
  rw [idleStep_plain (hostPart_none hh) ho, servicePending_cons hp]
  refine andThen_eq_self fun t e => ?_
  obtain ⟨hhost, hout⟩ := serviceTrigger_host e
  simp only at hhost hout
  rw [State.withHostWrites, ← hhost, ← hout]

/-- Settles O9, clause by clause: a head with an operation, by the state that sees it; no head outside IDLE; and
IDLE with nothing to consume. -/
theorem stepRunsUpOperation : Obligations.StepRunsUpOperation := by
  intro s c hc
  simp only [step_control]
  refine ⟨fun f i hf hd => ⟨fun hr => ?_, fun h1 h2 h0 => ?_, fun ho hp => ?_⟩, fun hf ho => ?_,
    fun ho hn => ?_⟩
  · have hne : s.ostate ≠ .idle := by rcases hr with h | h <;> rw [h] <;> decide
    rw [controlStep_noHost (s := ctlStart c s) hc hne, orchTick_receiving (s := ctlStart c s) hr]
    exact andThen_congr fun t e =>
      consume_of_decodeUp (by rw [emit_upq e]; exact hf) hd
  · rw [controlStep_noHost (s := ctlStart c s) hc h0, orchTick_sending (s := ctlStart c s) h0 h1 h2,
      consume_of_decodeUp (s := ctlStart c s) hf hd]
  · rw [controlStep_idle_alone (s := ctlStart c s) hc ho hp, consume_of_decodeUp (s := ctlStart c s) hf hd]
  · rw [controlStep_noHost (s := ctlStart c s) hc ho, orchTick_noHead (s := ctlStart c s) hf ho]
  · have hcons : consume (ctlStart c s) = .next (ctlStart c s) := by
      rcases hn with hn | hn
      · exact consume_none hn
      · exact consume_hold ho hn
    refine ⟨fun hp => ?_, fun t rest hp => ?_⟩
    · rw [controlStep_idle_alone (s := ctlStart c s) hc ho hp, hcons]
    · rw [controlStep_idle (s := ctlStart c s) ho, orchTick_idle (s := ctlStart c s) ho, hcons, andThen_next,
        idleStep_pending (s := ctlStart c s) hc ho hp]

end Sys2Proof.Machine
end

section
/-! PROOFS. The orchestrator: its requests (R180, R192), the up frames of no row of the operation map (R122),
and the `command` writes it refuses (R123, R300). -/

namespace Sys2Proof.Machine

/-! Requests. -/

theorem emit_recvResp {s : State} (h : s.ostate = .recvResp) :
    emit s = .next (sendRequest (responseRequest s) s) := by
  unfold emit
  rw [h]

theorem emit_recvData {s : State} (h : s.ostate = .recvData) :
    emit s = .next (sendRequest (blockRequest s) s) := by
  unfold emit
  rw [h]

theorem sendRequest_push {fr : Frame} {s : State} (hd : s.downq.ready = true) (hr : s.reqSent = false) :
    sendRequest fr s = { s with downq := s.downq.push fr, reqSent := true } := by
  unfold sendRequest
  rw [hd, hr]
  rfl

theorem sendRequest_wait {fr : Frame} {s : State} (h : s.downq.ready = false ∨ s.reqSent = true) :
    sendRequest fr s = s := by
  unfold sendRequest
  rcases h with h | h <;> simp [h]

/-- The response request with the mode values of R95 and the length less 1 (R107, R180). -/
theorem responseRequest_listOrder {s : State} (hm : s.cfg.modes = .listOrder) (hb : s.cfg.readlenBias = 1) :
    responseRequest s =
      { data := if s.desc.kind = 1 then 0x05 else 0x10, ctrl := 0x00, last := decide (s.desc.dir = 0) } := by
  have hlen : readLength s.cfg s.desc.kind = if s.desc.kind = 1 then 0x05 else 0x10 := by
    unfold readLength responseLength kindShort
    rw [hb]
    split_ifs <;> rfl
  rw [responseRequest, xferFrame, hm, hlen]
  rfl

/-- The data request with the mode values of R95 (R110, R192). -/
theorem blockRequest_listOrder {s : State} (hm : s.cfg.modes = .listOrder) :
    blockRequest s = { data := 0x00, ctrl := 0x01, last := decide (s.blkcnt = s.host.blockcount) } := by
  rw [blockRequest, xferFrame, hm]
  rfl

/-- Settles O37: with nothing at `UPQ` the tick is the producer port, which is `sendRequest` in both states. -/
theorem requestsAreSentOnce : Obligations.RequestsAreSentOnce := by
  intro s c hc hf hm hb
  have tick : s.ostate ≠ .idle → step (s.withEvent (.control c)) = emit (ctlStart c s) := fun ho =>
    (controlStep_noHost (s := ctlStart c s) hc ho).trans (orchTick_noHead (s := ctlStart c s) hf ho)
  have resp (ho : s.ostate = .recvResp) := (tick (by rw [ho]; decide)).trans (emit_recvResp ho)
  have data (ho : s.ostate = .recvData) := (tick (by rw [ho]; decide)).trans (emit_recvData ho)
  refine ⟨fun ho hd hr => ?_, fun ho hd hr => ?_, fun ho hw => ?_⟩
  · rw [resp ho, sendRequest_push (s := ctlStart c s) hd hr,
      responseRequest_listOrder (s := ctlStart c s) hm hb]
    rfl
  · rw [data ho, sendRequest_push (s := ctlStart c s) hd hr, blockRequest_listOrder (s := ctlStart c s) hm]
    rfl
  · rcases ho with ho | ho
    · rw [resp ho, sendRequest_wait (s := ctlStart c s) hw]
    · rw [data ho, sendRequest_wait (s := ctlStart c s) hw]

/-! Up frames of no row of the operation map. -/

/-- A frame of no row has neither status that both channels name (R111). -/
theorem status_of_decodeUp_error {f : Frame} {e : FrameError} (h : decodeUp f = .error e) :
    f.status ≠ Status.ok.code ∧ f.status ≠ Status.timeout.code := by
  unfold decodeUp at h
  constructor <;> intro hs <;> rw [hs] at h
  all_goals cases hb : f.ctrl.getLsbD 0 <;> rw [hb] at h <;> cases h

/-- RECV_RESP knows two kinds of status only, TIMEOUT and any other (R183). -/
theorem takeResponse_congr {f g : Frame} (hf : f.status ≠ Status.timeout.code)
    (hg : g.status ≠ Status.timeout.code) (hd : f.data = g.data) (hl : f.last = g.last) (s : State) :
    takeResponse f s = takeResponse g s := by
  unfold takeResponse
  rw [if_neg hf, if_neg hg, hd, hl]

/-- RECV_DATA drops a byte of any status but OK and TIMEOUT (R195). -/
theorem takeBlockByte_congr {f g : Frame} (hf : f.status ≠ Status.timeout.code)
    (hf' : f.status ≠ Status.ok.code) (hg : g.status ≠ Status.timeout.code)
    (hg' : g.status ≠ Status.ok.code) (hl : f.last = g.last) (s : State) :
    takeBlockByte f s = takeBlockByte g s := by
  unfold takeBlockByte
  rw [if_neg hf, if_neg hg, if_neg hf', if_neg hg', hl]

theorem blockReady_of_ne_ok {f : Frame} (h : f.status ≠ Status.ok.code) (s : State) :
    blockReady f s = true := by
  simp [blockReady, h]

/-- SEND_DATA knows two kinds of status only, DATA_ACCEPTED and any other (R200). -/
theorem inspectAck_congr {f g : Frame}
    (h : f.status = Status.dataAccepted.code ↔ g.status = Status.dataAccepted.code) (s : State) :
    inspectAck f s = inspectAck g s := by
  unfold inspectAck
  simp only [h]

/-- Settles O34: in each consuming state the frame and the operation's are of one kind of status. -/
theorem unnamedStatusesAreDefined : Obligations.UnnamedStatusesAreDefined := by
  intro s f e hf he
  obtain ⟨hok, hto⟩ := status_of_decodeUp_error he
  rw [consume_some hf]
  refine ⟨fun ho => ?_, fun ho => ?_, fun ho hs => ?_, fun ho hs => ?_⟩
  · show _ = consumeUp (upFrame 0 .ok .cmd f.data f.last) s
    have hto' : (upFrame 0 .ok .cmd f.data f.last).status ≠ Status.timeout.code := by
      rw [upFrame_status]; decide
    rw [consumeUp_recvResp ho hf, consumeUp_recvResp ho hf]
    exact congrArg _ (takeResponse_congr hto hto' rfl rfl _)
  · show _ = consumeUp (upFrame 0 .crcError .data f.data f.last) s
    have hok' : (upFrame 0 .crcError .data f.data f.last).status ≠ Status.ok.code := by
      rw [upFrame_status]; decide
    rw [consumeUp_recvData ho (blockReady_of_ne_ok hok s) hf,
      consumeUp_recvData ho (blockReady_of_ne_ok hok' s) hf]
    exact congrArg _ (takeBlockByte_congr hto hok (by rw [upFrame_status]; decide) hok' rfl _)
  · show _ = consumeUp (upFrame 0 .writeError .data f.data f.last) s
    rw [consumeUp_sendData ho hf, consumeUp_sendData ho hf]
    exact congrArg _ (inspectAck_congr (iff_of_false hs (by rw [upFrame_status]; decide)) _)
  · show _ = consumeUp (upFrame 0 .dataAccepted .data f.data f.last) s
    rw [consumeUp_sendData ho hf, consumeUp_sendData ho hf]
    exact congrArg _ (inspectAck_congr (iff_of_true hs (upFrame_status ..)) _)

/-! Refused `command` writes. -/

theorem hostTrigger_idle (tr : Trigger) {s : State} (h : s.ostate = .idle) :
    hostTrigger tr s = serviceTrigger tr s := by
  unfold hostTrigger
  rw [if_pos h]

theorem issueCommand_reserved {s : State} (h : cmdKind s.host.command = 3 ∨ cmdDir s.host.command = 3) :
    issueCommand s = .refused .reservedCommandField := by
  unfold issueCommand
  exact if_pos h

theorem issueCommand_zeroBlocksize {s : State}
    (h : ¬(cmdKind s.host.command = 3 ∨ cmdDir s.host.command = 3))
    (hz : cmdKind s.host.command ≠ kindNone ∧ cmdDir s.host.command ≠ dirNone ∧ s.host.blocksize = 0) :
    issueCommand s = .refused .zeroBlocksizeTransfer := by
  unfold issueCommand
  exact (if_neg h).trans (if_pos hz)

/-- Settles O2: in IDLE the write is `issueCommand` with the value stored. -/
theorem reservedCommandWritesRefused : Obligations.ReservedCommandWritesRefused := by
  intro s v ho
  have hx : exec (.wrCommand v) s = issueCommand { s with host := { s.host with command := v } } :=
    hostTrigger_idle .command (s := { s with host := { s.host with command := v } }) ho
  rw [hx]
  exact ⟨fun h => issueCommand_reserved h,
    fun hk hd hk0 hd0 hz => issueCommand_zeroBlocksize (not_or.mpr ⟨hk, hd⟩) ⟨hk0, hd0, hz⟩⟩

end Sys2Proof.Machine
end

section
/-! PROOFS. The rest of the host interface: what a host write stores and triggers (R142 to R148, R152), what a
host read returns (R149 to R151), and the accesses that are no operation (R153). -/

namespace Sys2Proof.Machine

/-! Triggers. -/

/-- Outside IDLE, with `BUSY_WRITE_POLICY = drop`, the trigger of a write is lost (R152). -/
theorem hostTrigger_drop (tr : Trigger) {s : State} (ho : s.ostate ≠ .idle)
    (hp : s.cfg.busyWritePolicy = .drop) : hostTrigger tr s = .next s := by
  unfold hostTrigger
  rw [if_neg ho, hp]

/-- A `command` write to which neither refusal applies is accepted (R123, R143, R300). -/
theorem issueCommand_accepted {s : State}
    (hr : ¬(cmdKind s.host.command = 3 ∨ cmdDir s.host.command = 3))
    (hz : ¬(cmdKind s.host.command ≠ kindNone ∧ cmdDir s.host.command ≠ dirNone ∧ s.host.blocksize = 0)) :
    ∃ t, issueCommand s = .next t := by
  unfold issueCommand
  exact ⟨_, (if_neg hr).trans (if_neg hz)⟩

theorem exec_wrCommand_idle (v : BitVec 32) {s : State} (ho : s.ostate = .idle) :
    exec (.wrCommand v) s = issueCommand { s with host := { s.host with command := v } } :=
  hostTrigger_idle .command ho

/-- Settles O1: in IDLE neither refusal of `issueCommand` applies, and `issueCommand_eq_next` names the next
state; elsewhere the trigger is lost. -/
theorem commandWriteIssuesFromIdle : Obligations.CommandWriteIssuesFromIdle := by
  refine fun s v => ⟨fun ho hk hd hz => ?_, fun ho hp => hostTrigger_drop .command ho hp⟩
  rw [exec_wrCommand_idle v ho]
  obtain ⟨t, ht⟩ := issueCommand_accepted (s := { s with host := { s.host with command := v } })
    (not_or.mpr ⟨hk, hd⟩) fun ⟨hk0, hd0, hb⟩ => hz hk0 hd0 hb
  obtain ⟨_, _, rfl⟩ := issueCommand_eq_next ht
  exact ht

/-- Settles O3: in IDLE the trigger of the field is serviced, elsewhere it is lost. -/
theorem configWritesStreamFromIdle : Obligations.ConfigWritesStreamFromIdle := by
  refine fun s => ⟨fun ho => ⟨?_, ?_, ?_, ?_⟩, fun ho hp => ⟨?_, ?_, ?_, ?_⟩⟩ <;> intro v
  · exact hostTrigger_idle .cmdtimeout ho
  · exact hostTrigger_idle .datatimeout ho
  · exact hostTrigger_idle .voltage ho
  · exact hostTrigger_idle .blocksize ho
  · exact hostTrigger_drop .cmdtimeout ho hp
  · exact hostTrigger_drop .datatimeout ho hp
  · exact hostTrigger_drop .voltage ho hp
  · exact hostTrigger_drop .blocksize ho hp

/-- Settles O4: neither write has a trigger. -/
theorem writesWithoutTriggerOnlyStore : Obligations.WritesWithoutTriggerOnlyStore :=
  fun _ => ⟨fun _ => rfl, fun _ => rfl⟩

/-- Settles O5: a read writes the read data lines alone, and the lines of the two event registers are
`cmdevt` and `dataevt` by definition. -/
theorem hostReadsReturnAndKeep : Obligations.HostReadsReturnAndKeep :=
  fun _ => ⟨rfl, rfl, rfl⟩

/-! Accesses that are no operation. -/

theorem decodeHost_read_writeOnly {a : HostAccess} (hw : a.we = false)
    (hi : a.id.toNat ∈ [0, 1, 3, 4, 5, 6, 7]) : decodeHost a = .error (.notAnOperation a.we a.id) := by
  unfold decodeHost
  rw [hw]
  generalize a.id.toNat = n at hi ⊢
  fin_cases hi <;> rfl

theorem decodeHost_write_readOnly {a : HostAccess} (hw : a.we = true) (hi : a.id.toNat ∈ [2, 8, 9]) :
    decodeHost a = .error (.notAnOperation a.we a.id) := by
  unfold decodeHost
  rw [hw]
  generalize a.id.toNat = n at hi ⊢
  fin_cases hi <;> rfl

/-- A refused host access refuses the tick in IDLE, whatever is pending (R153). -/
theorem idleStep_error {s : State} {a : HostAccess} {e : HostError} (hc : s.cin.host = some a)
    (hd : decodeHost a = .error e) : idleStep s = .refused (hostRefusal e) := by
  unfold idleStep
  rw [hostPart_error hc hd, andThen_refused]

/-- A refused host access refuses the control tick in every state: in IDLE the consumer port before it always
answers next, elsewhere the host's part comes first (R153). -/
theorem controlStep_error {s : State} {a : HostAccess} {e : HostError} (hc : s.cin.host = some a)
    (hd : decodeHost a = .error e) : controlStep s = .refused (hostRefusal e) := by
  by_cases ho : s.ostate = .idle
  · rw [controlStep_idle ho, orchTick_idle ho]
    rcases consume_idle ho with h | ⟨_, _, h⟩ <;> rw [h, andThen_next] <;> exact idleStep_error hc hd
  · rw [controlStep_busy ho, hostPart_error hc hd, andThen_refused]

/-- Settles O6: either access decodes to `notAnOperation`, under which the control tick is refused. -/
theorem nonOperationsRefused : Obligations.NonOperationsRefused := by
  intro s c a hc h
  have hd : decodeHost a = .error (.notAnOperation a.we a.id) := by
    rcases h with ⟨hw, hi⟩ | ⟨hw, hi⟩
    · exact decodeHost_read_writeOnly hw hi
    · exact decodeHost_write_readOnly hw hi
  exact (step_control c s).trans (controlStep_error (s := ctlStart c s) hc hd)

end Sys2Proof.Machine
end

section
/-! PROOFS. The command cycle: the arcs of the orchestrator's state (R217), the flags of a cycle by its state
(R215), and what the event registers show of them (R347). -/

namespace Sys2Proof.Machine

/-! The flags, by the state. -/

theorem FlagsOk.congr {s t : State} (h : FlagsOk s) (ho : t.ostate = s.ostate) (hc : t.cmdf = s.cmdf)
    (hd : t.dataf = s.dataf) : FlagsOk t := by
  unfold FlagsOk
  rw [ho, hc, hd]
  exact h

theorem flagsOk_sendCmd {s : State} (ho : s.ostate = .sendCmd) :
    FlagsOk s ↔ s.cmdf = .clear ∧ s.dataf = .clear := by
  unfold FlagsOk
  rw [ho]

theorem flagsOk_recvResp {s : State} (ho : s.ostate = .recvResp) :
    FlagsOk s ↔ s.cmdf = .clear ∧ s.dataf = .clear := by
  unfold FlagsOk
  rw [ho]

theorem flagsOk_recvData {s : State} (ho : s.ostate = .recvData) :
    FlagsOk s ↔ s.cmdf.done = true ∧ s.cmdf.timeout = false ∧ s.dataf.done = false ∧
      s.dataf.timeout = false ∧ s.dataf.werr = false := by
  unfold FlagsOk
  rw [ho]

theorem flagsOk_sendData {s : State} (ho : s.ostate = .sendData) :
    FlagsOk s ↔ s.cmdf.done = true ∧ s.cmdf.timeout = false ∧ s.dataf.done = false ∧
      s.dataf.timeout = false ∧ s.dataf.crcerr = false := by
  unfold FlagsOk
  rw [ho]

theorem flagsOk_idle {s : State} (ho : s.ostate = .idle) :
    FlagsOk s ↔ (s.cmdf = .clear ∧ s.dataf = .clear) ∨
      (s.cmdf.done ≠ s.cmdf.timeout ∧ s.dataf.done ≠ s.dataf.timeout ∧
        (s.cmdf.timeout = true → s.cmdf.crcEn = false ∧ s.dataf.done = true ∧
          s.dataf.werr = false ∧ s.dataf.crcerr = false) ∧
        (s.dataf.timeout = true → s.dataf.werr = false) ∧
        (s.dataf.werr = true → s.dataf.crcerr = false)) := by
  unfold FlagsOk
  rw [ho]

/-- A configuration state keeps the flags that IDLE left it (R35). -/
theorem flagsOk_field {s : State} {f : CfgField} (ho : s.ostate = f.state) :
    FlagsOk s ↔ FlagsOk { s with ostate := .idle } := by
  unfold FlagsOk
  rw [ho]
  cases f <;> rfl

/-- A cycle ends with the response: the command is done, and the data part is either done or timed out. -/
theorem FlagsOk.of_commandDone {t : State} (ho : t.ostate = .idle) (hc : t.cmdf.done = true)
    (hc' : t.cmdf.timeout = false) (hd : t.dataf.done ≠ t.dataf.timeout)
    (hw : t.dataf.timeout = true → t.dataf.werr = false)
    (hk : t.dataf.werr = true → t.dataf.crcerr = false) : FlagsOk t :=
  (flagsOk_idle ho).mpr (.inr ⟨by rw [hc, hc']; decide, hd, fun h => by simp [hc'] at h, hw, hk⟩)

/-- A cycle without a data part ends with both parts done and no error of the data (R178, R191). -/
theorem FlagsOk.of_bothDone {t : State} (ho : t.ostate = .idle) (hc : t.cmdf.done = true)
    (hc' : t.cmdf.timeout = false) (hd : t.dataf = { DataFlags.clear with done := true }) : FlagsOk t :=
  .of_commandDone ho hc hc' (by rw [hd]; decide) (by rw [hd]; decide) (by rw [hd]; decide)

/-! Moves of the cycle. -/

/-- A move along an arc of R217, or none, that keeps the flags in step with the state (R215). -/
structure CycleMove (s t : State) : Prop where
  cfg : t.cfg = s.cfg
  arc : Arc s.ostate t.ostate = true
  flags : s.cfg.doneOnTimeout = false → FlagsOk s → FlagsOk t

theorem Arc.refl (o : OState) : Arc o o = true := by cases o <;> rfl

theorem CycleMove.of_eq {s t : State} (hcfg : t.cfg = s.cfg) (ho : t.ostate = s.ostate)
    (hc : t.cmdf = s.cmdf) (hd : t.dataf = s.dataf) : CycleMove s t :=
  ⟨hcfg, by rw [ho]; exact Arc.refl _, fun _ h => h.congr ho hc hd⟩

theorem CycleMove.refl (s : State) : CycleMove s s := .of_eq rfl rfl rfl rfl

/-- Of two moves in one tick one stays in its state: there is no arc of two. -/
theorem CycleMove.trans {s t u : State} (h : CycleMove s t) (h' : CycleMove t u)
    (ho : t.ostate = s.ostate ∨ u.ostate = t.ostate) : CycleMove s u where
  cfg := h'.cfg.trans h.cfg
  arc := by
    rcases ho with ho | ho
    · rw [← ho]; exact h'.arc
    · rw [ho]; exact h.arc
  flags hdt hf := h'.flags (by rw [h.cfg]; exact hdt) (h.flags hdt hf)

/-! The producer port. -/

theorem streamField_cycle {f : CfgField} {s t : State} (ho : s.ostate = f.state)
    (e : streamField f s = .next t) : CycleMove s t := by
  obtain ⟨_, _, ⟨_, rfl⟩ | ⟨_, _, rfl⟩ | ⟨_, _, rfl⟩⟩ := streamField_eq_next e
  · exact .refl _
  · exact ⟨rfl, by rw [ho]; cases f <;> rfl, fun _ h => ((flagsOk_field ho).mp h).congr rfl rfl rfl⟩
  · exact .of_eq rfl rfl rfl rfl

theorem sendCommand_cycle {s t : State} (ho : s.ostate = .sendCmd) (e : sendCommand s = .next t) :
    CycleMove s t := by
  obtain ⟨_, _, ⟨_, rfl⟩ | ⟨_, _, rfl⟩ | ⟨_, _, _, rfl⟩ | ⟨_, _, _, rfl⟩⟩ := sendCommand_eq_next e
  · exact .refl _
  · exact .of_eq rfl rfl rfl rfl
  · refine ⟨rfl, by rw [ho]; rfl, fun _ h => ?_⟩
    obtain ⟨hc, hd⟩ := (flagsOk_sendCmd ho).mp h
    exact .of_bothDone rfl rfl (congrArg CmdFlags.timeout hc) (by simp only [hd])
  · exact ⟨rfl, by rw [ho]; rfl, fun _ h => (flagsOk_recvResp rfl).mpr ((flagsOk_sendCmd ho).mp h)⟩

/-- The end of a block: the last one ends the cycle with the data done (R197, R204). -/
theorem endBlock_cycle {s : State} (ho : s.ostate = .recvData ∨ s.ostate = .sendData) :
    CycleMove s (endBlock s) := by
  rcases endBlock_cases s with ⟨_, e⟩ | ⟨_, e⟩ <;> rw [e]
  · refine ⟨rfl, by rcases ho with ho | ho <;> rw [ho] <;> rfl, fun _ h => ?_⟩
    rcases ho with ho | ho
    · obtain ⟨hc, hc', _, ht, hw⟩ := (flagsOk_recvData ho).mp h
      exact .of_commandDone rfl hc hc' (by simp [ht]) (fun _ => hw) (by simp [hw])
    · obtain ⟨hc, hc', _, ht, hk⟩ := (flagsOk_sendData ho).mp h
      exact .of_commandDone rfl hc hc' (by simp [ht]) (by simp [ht]) (fun _ => hk)
  · exact .of_eq rfl rfl rfl rfl

theorem sendRequest_cycle (fr : Frame) (s : State) :
    CycleMove s (sendRequest fr s) ∧ (sendRequest fr s).ostate = s.ostate := by
  rcases sendRequest_cases fr s with ⟨_, _, e⟩ | ⟨_, e⟩ <;> rw [e] <;> exact ⟨.of_eq rfl rfl rfl rfl, rfl⟩

theorem sendBlockByte_cycle {s : State} (ho : s.ostate = .sendData) : CycleMove s (sendBlockByte s) := by
  rcases sendBlockByte_cases s with e | ⟨_, b, last, _, e⟩ <;> rw [e]
  · exact .of_eq rfl rfl rfl rfl
  · have push : ∀ o g f, CycleMove s { s with out := o, gen := g, downq := s.downq.push f } :=
      fun _ _ _ => .of_eq rfl rfl rfl rfl
    cases last with
    | false => exact push ..
    | true => exact (push ..).trans (endBlock_cycle (.inr ho)) (.inl rfl)

/-- The producer port moves along an arc, and in the two receiving states it stays (R170 (b)). -/
theorem emit_cycle {s t : State} (e : emit s = .next t) :
    CycleMove s t ∧ (s.ostate = .recvResp ∨ s.ostate = .recvData → t.ostate = s.ostate) := by
  unfold emit at e
  split at e <;> rename_i ho <;> simp only [ho, reduceCtorEq, or_self, false_implies, and_true]
  · cases e; exact .refl s
  · exact streamField_cycle (f := .cmdtimeout) ho e
  · exact streamField_cycle (f := .datatimeout) ho e
  · exact streamField_cycle (f := .blocksize) ho e
  · exact streamField_cycle (f := .voltage) ho e
  · exact sendCommand_cycle ho e
  · cases e
    obtain ⟨hm, ho'⟩ := sendRequest_cycle (responseRequest s) s
    exact ⟨hm, fun _ => ho'.trans ho⟩
  · cases e
    obtain ⟨hm, ho'⟩ := sendRequest_cycle (blockRequest s) s
    exact ⟨hm, fun _ => ho'.trans ho⟩
  · cases e; exact sendBlockByte_cycle ho

/-! The consumer port. -/

theorem takeResponse_cycle {f : Frame} {s : State} (ho : s.ostate = .recvResp) :
    CycleMove s (takeResponse f s) := by
  by_cases hs : f.status = Status.timeout.code
  · rw [takeResponse_timeout s hs]
    refine ⟨rfl, by rw [ho]; rfl, fun hdt h => ?_⟩
    obtain ⟨hc, hd⟩ := (flagsOk_recvResp ho).mp h
    refine (flagsOk_idle rfl).mpr (.inr ?_)
    simp [raise, hc, hd, hdt, CmdFlags.clear, DataFlags.clear]
  · cases hl : f.last with
    | false =>
      rw [takeResponse_byte s hs hl]
      exact .of_eq rfl rfl rfl rfl
    | true =>
      rw [takeResponse_last s hs hl]
      simp only
      split_ifs <;> refine ⟨rfl, by rw [ho]; rfl, fun _ h => ?_⟩ <;>
        obtain ⟨hc, hd⟩ := (flagsOk_recvResp ho).mp h
      · exact (flagsOk_recvData rfl).mpr (by rw [hd]; exact ⟨rfl, congrArg CmdFlags.timeout hc, rfl, rfl, rfl⟩)
      · exact (flagsOk_sendData rfl).mpr (by rw [hd]; exact ⟨rfl, congrArg CmdFlags.timeout hc, rfl, rfl, rfl⟩)
      · exact .of_bothDone rfl rfl (congrArg CmdFlags.timeout hc) (by simp only [hd])

/-- The checker writes no flag but `data_crcerr`, which RECV_DATA may have either way (R296). -/
theorem checkerTake_cycle (b : Byte) {s : State} (ho : s.ostate = .recvData) :
    CycleMove s (checkerTake b s) := by
  cases hp : s.chk.phase with
  | payload => rw [checkerTake_payload b hp]; exact .of_eq rfl rfl rfl rfl
  | crcHi => rw [checkerTake_crcHi b hp]; exact .of_eq rfl rfl rfl rfl
  | crcLo =>
    rw [checkerTake_crcLo b hp]
    exact ⟨rfl, Arc.refl _, fun _ h => (flagsOk_recvData (by exact ho)).mpr ((flagsOk_recvData ho).mp h)⟩

theorem takeBlockByte_cycle {f : Frame} {s : State} (ho : s.ostate = .recvData) :
    CycleMove s (takeBlockByte f s) := by
  unfold takeBlockByte
  split
  · refine ⟨rfl, by rw [ho]; rfl, fun hdt h => ?_⟩
    obtain ⟨hc, hc', hd, _, hw⟩ := (flagsOk_recvData ho).mp h
    exact .of_commandDone rfl hc hc' (by simp [raise, hd, hdt]) (fun _ => hw) (by simp [raise, hw])
  · have h : CycleMove s (if f.status = Status.ok.code then checkerTake f.data s else s) ∧
        (if f.status = Status.ok.code then checkerTake f.data s else s).ostate = s.ostate := by
      split_ifs
      · exact ⟨checkerTake_cycle _ ho, checkerTake_ostate ..⟩
      · exact ⟨.refl s, rfl⟩
    generalize (if f.status = Status.ok.code then checkerTake f.data s else s) = u at h ⊢
    obtain ⟨hm, hu⟩ := h
    have hb := hm.trans (endBlock_cycle (.inl (hu.trans ho))) (.inl hu)
    simp only
    split_ifs
    · exact hb
    · exact hb.trans (.of_eq rfl rfl rfl rfl) (.inr rfl)
    · exact hm

/-- SEND_DATA stays, and `data_werr` may be set either way in it (R200). -/
theorem inspectAck_cycle (f : Frame) {s : State} (ho : s.ostate = .sendData) :
    CycleMove s (inspectAck f s) ∧ (inspectAck f s).ostate = s.ostate := by
  unfold inspectAck
  split
  · exact ⟨.refl s, rfl⟩
  · exact ⟨⟨rfl, Arc.refl _,
      fun _ h => (flagsOk_sendData (by exact ho)).mpr ((flagsOk_sendData ho).mp h)⟩, rfl⟩

/-- The consumer port moves along an arc, and outside the two receiving states it stays (R170 (c)). -/
theorem consume_cycle {s t : State} (e : consume s = .next t) :
    CycleMove s t ∧ (s.ostate ≠ .recvResp → s.ostate ≠ .recvData → t.ostate = s.ostate) := by
  have pop : CycleMove s { s with upq := s.upq.pop } := .of_eq rfl rfl rfl rfl
  rw [consume_eq] at e
  split at e
  · cases e; exact ⟨.refl s, fun _ _ => rfl⟩
  · rename_i f _
    rcases consumeUp_eq_next e with rfl | ⟨_, ⟨_, _, rfl⟩ | ⟨ho, rfl⟩ | ⟨ho, _, rfl⟩ | ⟨ho, rfl⟩⟩
    · exact ⟨.refl _, fun _ _ => rfl⟩
    · exact ⟨pop, fun _ _ => rfl⟩
    · exact ⟨pop.trans (takeResponse_cycle ho) (.inl rfl), fun h _ => absurd ho h⟩
    · exact ⟨pop.trans (takeBlockByte_cycle ho) (.inl rfl), fun _ h => absurd ho h⟩
    · obtain ⟨hm, hs⟩ := inspectAck_cycle f (s := { s with upq := s.upq.pop }) ho
      exact ⟨pop.trans hm (.inl rfl), fun _ _ => hs⟩

/-- One of the two ports stays in the state, whichever the state is (R170). -/
theorem orchTick_cycle {s t : State} (e : orchTick s = .next t) : CycleMove s t := by
  by_cases h0 : s.ostate = .idle
  · rw [orchTick_idle h0] at e
    exact (consume_cycle e).1
  · by_cases hr : s.ostate = .recvResp ∨ s.ostate = .recvData
    · rw [orchTick_receiving hr] at e
      obtain ⟨u, hu, e⟩ := andThen_eq_next.mp e
      obtain ⟨hm, hs⟩ := emit_cycle hu
      exact hm.trans (consume_cycle e).1 (.inl (hs hr))
    · obtain ⟨h1, h2⟩ := not_or.mp hr
      rw [orchTick_sending h0 h1 h2] at e
      obtain ⟨u, hu, e⟩ := andThen_eq_next.mp e
      obtain ⟨hm, hs⟩ := consume_cycle hu
      exact hm.trans (emit_cycle e).1 (.inl (hs h1 h2))

/-! The host's part, the triggers, and the whole step. -/

theorem HostWrote.cycle {s t : State} (h : HostWrote s t) : CycleMove s t := by
  obtain ⟨_, _, _, rfl⟩ := h
  exact .of_eq rfl rfl rfl rfl

/-- A serviced trigger leaves IDLE: a command with every flag cleared, a field with the flags as they are (R143
to R147). -/
theorem serviceTrigger_cycle {tr : Trigger} {s t : State} (ho : s.ostate = .idle)
    (e : serviceTrigger tr s = .next t) : CycleMove s t := by
  rcases serviceTrigger_eq_next e with ⟨_, e⟩ | ⟨f, rfl⟩
  · obtain ⟨_, _, rfl⟩ := issueCommand_eq_next e
    exact ⟨rfl, by rw [ho]; rfl, fun _ _ => (flagsOk_sendCmd rfl).mpr ⟨rfl, rfl⟩⟩
  · exact ⟨rfl, by rw [ho]; cases f <;> rfl,
      fun _ h => (flagsOk_field rfl).mpr (h.congr ho.symm rfl rfl)⟩

theorem idleStep_cycle {s t : State} (ho : s.ostate = .idle) (e : idleStep s = .next t) :
    CycleMove s t := by
  rcases idleStep_cases e with h | ⟨u, v, tr, hu, hv, ht⟩
  · exact h.cycle
  · have hso := hu.ostate_eq
    exact (hu.cycle.trans (serviceTrigger_cycle (hso.trans ho) hv) (.inl hso)).trans ht.cycle
      (.inr ht.ostate_eq)

theorem controlStep_cycle {s t : State} (e : controlStep s = .next t) : CycleMove s t := by
  rcases controlStep_cases e with ⟨ho, u, rfl | ⟨_, rfl⟩, hi⟩ | ⟨_, u, hu, ht⟩
  · exact idleStep_cycle ho hi
  · have pop : CycleMove s { s with upq := s.upq.pop } := .of_eq rfl rfl rfl rfl
    exact pop.trans (idleStep_cycle ho hi) (.inl rfl)
  · exact (orchTick_cycle hu).trans ht.cycle (.inr ht.ostate_eq)

/-- A tick of the other side moves neither the state nor the flags (R20). -/
theorem SameControl.cycle {s t : State} (h : SameControl s t) :
    Arc s.ostate t.ostate = true ∧ (FlagsOk s → FlagsOk t) :=
  ⟨by rw [h.ostate]; exact Arc.refl _, fun hf => hf.congr h.ostate h.cmdf h.dataf⟩

/-- Every event but reset moves along an arc and keeps the flags in step. -/
theorem runEvent_cycle {e : Event} {s t : State} (hr : e ≠ .reset) (he : runEvent e s = .next t) :
    Arc s.ostate t.ostate = true ∧ (s.cfg.doneOnTimeout = false → FlagsOk s → FlagsOk t) := by
  obtain ⟨_, bus, sync⟩ := sidesShareOnlyTheQueues s t e he
  cases e with
  | control c =>
    have start : CycleMove s (s.withCtl c) := .of_eq rfl rfl rfl rfl
    obtain ⟨_, harc, hflags⟩ := start.trans (controlStep_cycle he) (.inl rfl)
    exact ⟨harc, hflags⟩
  | bus b => exact (bus ⟨b, rfl⟩).cycle.imp id fun h _ => h
  | syncVis q => exact (sync ⟨q, .inl rfl⟩).2.cycle.imp id fun h _ => h
  | syncCred q => exact (sync ⟨q, .inr rfl⟩).2.cycle.imp id fun h _ => h
  | reset => exact absurd rfl hr

/-- Settles O54: each part of a control tick is a `CycleMove`, and one part at most leaves the state. -/
theorem orchestratorArcs : Obligations.OrchestratorArcs := fun _ _ hr e => (runEvent_cycle hr e).1

/-- Settles O59: reset clears every flag, and every other event moves along the cycle (`CycleMove.flags`). -/
theorem stepKeepsFlagPhases : Obligations.StepKeepsFlagPhases := by
  intro s t hdt h e
  have h' : FlagsOk s.advance := h.congr rfl rfl rfl
  by_cases hr : nextEvent s = .reset
  · rw [step, hr] at e
    cases e
    exact (flagsOk_idle rfl).mpr (.inl ⟨rfl, rfl⟩)
  · exact (runEvent_cycle hr e).2 hdt h'

/-! The event registers. -/

/-- Four event bits on the low lines of a register (R27, R28). -/
def eventWord (b3 b2 b1 b0 : Bool) : BitVec 32 :=
  0#28 ++ BitVec.ofBool b3 ++ BitVec.ofBool b2 ++ BitVec.ofBool b1 ++ BitVec.ofBool b0

theorem cmdevt_eq (s : State) :
    cmdevt s = eventWord (cmdCrcerr s) s.cmdf.timeout false s.cmdf.done := rfl

theorem dataevt_eq (s : State) :
    dataevt s = eventWord s.dataf.crcerr s.dataf.timeout s.dataf.werr s.dataf.done := rfl

/-- Without `cmd_crc_en` no CRC error shows (R34). -/
theorem cmdCrcerr_of_off {s : State} (h : s.cmdf.crcEn = false) : cmdCrcerr s = false := by
  rw [cmdCrcerr, h, Bool.false_and]

/-- Before the response nothing shows. -/
theorem events_of_clear {s : State} (hc : s.cmdf = .clear) (hd : s.dataf = .clear) :
    cmdevt s = 0 ∧ dataevt s = 0 := by
  rw [cmdevt_eq, dataevt_eq, cmdCrcerr_of_off (by rw [hc]; rfl), hc, hd]
  exact ⟨rfl, rfl⟩

/-- The command part over: done, perhaps with a CRC error, or timed out with nothing to check. -/
theorem cmdevt_over {s : State} (h : s.cmdf.done ≠ s.cmdf.timeout)
    (he : s.cmdf.timeout = true → s.cmdf.crcEn = false) : cmdevt s ∈ [0x1#32, 0x9#32, 0x4#32] := by
  have word : ∀ err timeout done : Bool, done ≠ timeout → (timeout = true → err = false) →
      eventWord err timeout false done ∈ [0x1#32, 0x9#32, 0x4#32] := by decide
  exact word _ _ _ h fun ht => cmdCrcerr_of_off (he ht)

/-- The data part over: done or timed out, with one error flag at most beside it. -/
theorem dataevt_over {s : State} (h : s.dataf.done ≠ s.dataf.timeout)
    (ht : s.dataf.timeout = true → s.dataf.werr = false)
    (hw : s.dataf.werr = true → s.dataf.crcerr = false) :
    dataevt s ∈ [0x1#32, 0x3#32, 0x9#32, 0x4#32, 0xC#32] := by
  have word : ∀ crcerr timeout werr done : Bool, done ≠ timeout → (timeout = true → werr = false) →
      (werr = true → crcerr = false) →
      eventWord crcerr timeout werr done ∈ [0x1#32, 0x3#32, 0x9#32, 0x4#32, 0xC#32] := by decide
  exact word _ _ _ _ h ht hw

/-- The data part under way: the error flag of its direction at most. -/
theorem dataevt_running {s : State} (hd : s.dataf.done = false) (ht : s.dataf.timeout = false)
    (he : s.dataf.werr = false ∨ s.dataf.crcerr = false) : dataevt s ∈ [0x0#32, 0x2#32, 0x8#32] := by
  have word : ∀ crcerr werr : Bool, werr = false ∨ crcerr = false →
      eventWord crcerr false werr false ∈ [0x0#32, 0x2#32, 0x8#32] := by decide
  rw [dataevt_eq, hd, ht]
  exact word _ _ he

/-- What the registers show at rest: nothing, or the end of a cycle (R347). -/
theorem FlagsOk.events_idle {s : State} (h : FlagsOk { s with ostate := .idle }) :
    (cmdevt s = 0 ∧ dataevt s = 0) ∨
    (cmdevt s ∈ [0x1#32, 0x9#32, 0x4#32] ∧ dataevt s ∈ [0x1#32, 0x3#32, 0x9#32, 0x4#32, 0xC#32]) := by
  rcases (flagsOk_idle rfl).mp h with ⟨hc, hd⟩ | ⟨hc, hd, hto, ht, hw⟩
  · exact .inl (events_of_clear hc hd)
  · exact .inr ⟨cmdevt_over hc fun h => (hto h).1, dataevt_over hd ht hw⟩

/-- What the registers show of a cycle: nothing yet or its end, or the response with the data part under way. -/
theorem FlagsOk.events {s : State} (h : FlagsOk s) :
    ((cmdevt s = 0 ∧ dataevt s = 0) ∨
      (cmdevt s ∈ [0x1#32, 0x9#32, 0x4#32] ∧ dataevt s ∈ [0x1#32, 0x3#32, 0x9#32, 0x4#32, 0xC#32])) ∨
    ((s.ostate = .recvData ∨ s.ostate = .sendData) ∧ cmdevt s ∈ [0x1#32, 0x9#32, 0x4#32] ∧
      dataevt s ∈ [0x0#32, 0x2#32, 0x8#32]) := by
  cases ho : s.ostate with
  | idle => exact .inl (events_idle (h.congr ho.symm rfl rfl))
  | cfgTimeoutData => exact .inl (events_idle ((flagsOk_field (f := .datatimeout) ho).mp h))
  | cfgTimeoutCmd => exact .inl (events_idle ((flagsOk_field (f := .cmdtimeout) ho).mp h))
  | cfgBlksize => exact .inl (events_idle ((flagsOk_field (f := .blocksize) ho).mp h))
  | cfgVoltage => exact .inl (events_idle ((flagsOk_field (f := .voltage) ho).mp h))
  | sendCmd => exact .inl (.inl (((flagsOk_sendCmd ho).mp h).elim events_of_clear))
  | recvResp => exact .inl (.inl (((flagsOk_recvResp ho).mp h).elim events_of_clear))
  | recvData =>
    obtain ⟨hc, hc', hd, ht, hw⟩ := (flagsOk_recvData ho).mp h
    exact .inr ⟨.inl rfl, cmdevt_over (by simp [hc, hc']) (by simp [hc']), dataevt_running hd ht (.inl hw)⟩
  | sendData =>
    obtain ⟨hc, hc', hd, ht, hk⟩ := (flagsOk_sendData ho).mp h
    exact .inr ⟨.inr rfl, cmdevt_over (by simp [hc, hc']) (by simp [hc']), dataevt_running hd ht (.inr hk)⟩

/-- Settles O60: no cycle, its end, or a data part under way, which is in none of the states at rest. -/
theorem eventRegisterCombinations : Obligations.EventRegisterCombinations := by
  intro s h
  rcases h.events with (⟨hc, hd⟩ | ⟨hc, hd⟩) | ⟨ho, hc, hd⟩
  · rw [hc, hd]
    exact ⟨by decide, by decide, fun _ => by decide⟩
  · have ne : ∀ v, v ∉ [0x1#32, 0x3#32, 0x9#32, 0x4#32, 0xC#32] → dataevt s ≠ v :=
      fun v hv => ne_of_mem_of_not_mem hd hv
    exact ⟨List.mem_cons_of_mem _ hc, List.mem_cons_of_mem _ (List.mem_append_left [0x2#32, 0x8#32] hd),
      fun _ => ⟨ne _ (by decide), ne _ (by decide),
        iff_of_false (ne_of_mem_of_not_mem hc (by decide)) (ne _ (by decide))⟩⟩
  · have sub : [0x0#32, 0x2#32, 0x8#32] ⊆
      [0x0#32, 0x1#32, 0x3#32, 0x9#32, 0x4#32, 0xC#32, 0x2#32, 0x8#32] := by decide
    refine ⟨List.mem_cons_of_mem _ hc, sub hd, fun hn => ?_⟩
    rcases ho with ho | ho <;> rw [ho] at hn <;> exact absurd hn (by decide)

end Sys2Proof.Machine
end

section
/-! PROOFS. The consumer port of `UPQ`, operation by operation (R171, R183 to R200). Each statement is about the
operations of some statuses, and goes through the frames of those statuses. -/

namespace Sys2Proof.Machine

/-! From the frames of a status to its operations (R206 to R212). -/

section

variable {s : State} {d : Byte} {l : Bool} {o : Result State}

theorem exec_okOps (r : BitVec 3)
    (h : ∀ f : Frame, f.status = Status.ok.code → f.data = d → f.last = l → consumeUp f s = o) :
    ∀ i ∈ okOps r d l, exec i s = o := by
  intro i hi
  simp only [okOps, List.mem_cons, List.not_mem_nil, or_false] at hi
  rcases hi with rfl | rfl
  · exact h (upFrame r .ok .cmd d l) (upFrame_status ..) rfl rfl
  · exact h (upFrame r .ok .data d l) (upFrame_status ..) rfl rfl

theorem exec_timeoutOps (r : BitVec 3)
    (h : ∀ f : Frame, f.status = Status.timeout.code → consumeUp f s = o) :
    ∀ i ∈ timeoutOps r d l, exec i s = o := by
  intro i hi
  simp only [timeoutOps, List.mem_cons, List.not_mem_nil, or_false] at hi
  rcases hi with rfl | rfl
  · exact h (upFrame r .timeout .cmd d l) (upFrame_status ..)
  · exact h (upFrame r .timeout .data d l) (upFrame_status ..)

theorem exec_ackOps (r : BitVec 3)
    (h : ∀ f : Frame, f.status ≠ Status.timeout.code → f.status ≠ Status.ok.code → f.data = d →
      f.last = l → consumeUp f s = o) :
    ∀ i ∈ ackOps r d l, exec i s = o := by
  have row (st : Status) (ht : st.code ≠ Status.timeout.code) (hk : st.code ≠ Status.ok.code) :
      consumeUp (upFrame r st .data d l) s = o :=
    h _ (by rw [upFrame_status]; exact ht) (by rw [upFrame_status]; exact hk) rfl rfl
  intro i hi
  simp only [ackOps, List.mem_cons, List.not_mem_nil, or_false] at hi
  rcases hi with rfl | rfl | rfl
  · exact row .dataAccepted (by decide) (by decide)
  · exact row .crcError (by decide) (by decide)
  · exact row .writeError (by decide) (by decide)

theorem exec_byteOps (r : BitVec 3)
    (h : ∀ f : Frame, f.status ≠ Status.timeout.code → f.data = d → f.last = l → consumeUp f s = o) :
    ∀ i ∈ byteOps r d l, exec i s = o := by
  intro i hi
  rcases List.mem_append.mp (show i ∈ okOps r d l ++ ackOps r d l from hi) with hi | hi
  · exact exec_okOps r (fun f hs => h f (by rw [hs]; decide)) i hi
  · exact exec_ackOps r (fun f ht _ => h f ht) i hi

theorem exec_upOps (r : BitVec 3) (h : ∀ f : Frame, consumeUp f s = o) :
    ∀ i ∈ byteOps r d l ++ timeoutOps r d l, exec i s = o := by
  intro i hi
  rcases List.mem_append.mp hi with hi | hi
  · exact exec_byteOps r (fun f _ _ _ => h f) i hi
  · exact exec_timeoutOps r (fun f _ => h f) i hi

/-- A frame of no row has a status that is not TIMEOUT, so it is one of the frames of the premise (R122). -/
theorem takesByte_of_consumeUp (r : BitVec 3)
    (h : ∀ f : Frame, f.status ≠ Status.timeout.code → f.data = d → f.last = l → consumeUp f s = o) :
    TakesByte s r d l o :=
  ⟨exec_byteOps r h, fun f _ hf hd hl he =>
    (consume_some hf).trans (h f (status_of_decodeUp_error he).2 hd hl)⟩

end

/-! The states that consume none, and IDLE that discards (R171, R172, R177, R394). -/

theorem consumeUp_consumesNone (f : Frame) {s : State} (h : ConsumesNone s) : consumeUp f s = .next s := by
  unfold consumeUp
  rcases h with ⟨ho, hp⟩ | ho | ho | ho | ho | ho <;> rw [ho]
  rw [hp]

/-- Settles O33: in each state one rule for every up frame. -/
theorem upFramesWaitOutsideConsumingStates : Obligations.UpFramesWaitOutsideConsumingStates :=
  fun _ r _ _ => ⟨fun h => exec_upOps r fun f => consumeUp_consumesNone f h,
    fun ho hp ⟨_, hg⟩ => exec_upOps r fun f => (consumeUp_drain f ho hp).trans (popUp_of_head hg)⟩

/-! RECV_RESP (R183 to R191). -/

/-- Settles O27: the byte shifts in, whatever the status. -/
theorem responseByteShiftsIn : Obligations.ResponseByteShiftsIn := by
  rintro s r d ho ⟨g, hg⟩
  refine takesByte_of_consumeUp r fun f ht hd hl => ?_
  rw [consumeUp_recvResp ho hg, takeResponse_byte _ ht hl, hd]

/-- Settles O28: the three branches of `takeResponse_last`. -/
theorem finalResponseByteBranches : Obligations.FinalResponseByteBranches := by
  rintro s r d ho ⟨g, hg⟩
  refine ⟨fun hr => ?_, fun hw => ?_, fun hn => ?_⟩ <;>
    refine takesByte_of_consumeUp r fun f ht hd hl => ?_ <;>
    rw [consumeUp_recvResp ho hg, takeResponse_last _ ht hl, hd]
  · exact congrArg _ (if_pos hr)
  · have hr : s.desc.dir ≠ dirRead := by rw [hw]; decide
    exact congrArg _ ((if_neg hr).trans (if_pos hw))
  · have hr : s.desc.dir ≠ dirRead := by rw [hn]; decide
    have hw : s.desc.dir ≠ dirWrite := by rw [hn]; decide
    exact congrArg _ ((if_neg hr).trans (if_neg hw))

/-! RECV_DATA (R193 to R197, R295, R296). -/

/-- With status OK, RECV_DATA takes a byte when the checker does (R193). -/
theorem blockReady_of_ok {f : Frame} (h : f.status = Status.ok.code) (s : State) :
    blockReady f s = checkerReady s := by
  simp [blockReady, h]

theorem checkerReady_payload {s : State} (h : s.chk.phase = .payload) : checkerReady s = s.cin.doReady := by
  unfold checkerReady
  rw [h]

theorem checkerReady_trailer {s : State} (h : s.chk.phase ≠ .payload) : checkerReady s = true := by
  unfold checkerReady
  cases hp : s.chk.phase with
  | payload => exact absurd hp h
  | crcHi => rfl
  | crcLo => rfl

theorem endBlock_last {s : State} (h : s.blkcnt = s.host.blockcount) :
    endBlock s = { s with blkcnt := 0, dataf := { s.dataf with done := true }, ostate := .idle } := by
  unfold endBlock
  rw [if_pos h]

theorem endBlock_more {s : State} (h : s.blkcnt ≠ s.host.blockcount) :
    endBlock s = { s with blkcnt := s.blkcnt + 1 } := by
  unfold endBlock
  rw [if_neg h]

/-- The marker ends the block, after the checker if the byte is the block's (R197). -/
theorem takeBlockByte_marker {f : Frame} {s u : State} (h : f.status ≠ Status.timeout.code)
    (hl : f.last = true) (hu : (if f.status = Status.ok.code then checkerTake f.data s else s) = u) :
    takeBlockByte f s =
      if u.blkcnt = u.host.blockcount then
        { u with blkcnt := 0, dataf := { u.dataf with done := true }, ostate := .idle }
      else { u with blkcnt := u.blkcnt + 1, reqSent := false } := by
  rw [takeBlockByte_last s h hl, hu]
  simp only
  split_ifs with hb
  · exact endBlock_last hb
  · rw [endBlock_more hb]

/-- Settles O26: a TIMEOUT frame is popped in either state, and `raise` says what it does. -/
theorem timeoutReturnsToIdle : Obligations.TimeoutReturnsToIdle := by
  rintro s r d l ⟨g, hg⟩
  refine ⟨fun ho => exec_timeoutOps r fun f ht => ?_, fun ho => exec_timeoutOps r fun f ht => ?_⟩
  · rw [consumeUp_recvResp ho hg, takeResponse_timeout _ ht]
    rfl
  · have hr := blockReady_of_ne_ok (f := f) (by rw [ht]; decide) s
    rw [consumeUp_recvData ho hr hg, takeBlockByte_timeout _ ht]
    rfl

/-- Settles O29: `do_ready` decides whether the byte is taken, and `checkerTake_payload` says where it goes. -/
theorem payloadByteReachesSink : Obligations.PayloadByteReachesSink := by
  rintro s r d ho ⟨g, hg⟩ hp i hi
  have ready {f : Frame} (hk : f.status = Status.ok.code) : blockReady f s = s.cin.doReady :=
    (blockReady_of_ok hk s).trans (checkerReady_payload hp)
  have take (hd : s.cin.doReady = true) : exec i s = .next (checkerTake d { s with upq := s.upq.pop }) := by
    refine exec_okOps r (fun f hk hf hl => ?_) i hi
    rw [consumeUp_recvData ho ((ready hk).trans hd) hg, takeBlockByte_ok _ hk hl, hf]
  refine ⟨fun hn => ?_, fun hd hc => ?_, fun hd hc => ?_⟩
  · exact exec_okOps r (fun f hk _ _ => consumeUp_recvData_wait ho ((ready hk).trans hn)) i hi
  · rw [take hd, checkerTake_payload d (s := { s with upq := s.upq.pop }) hp]
    simp [hc, hp]
  · rw [take hd, checkerTake_payload d (s := { s with upq := s.upq.pop }) hp]
    simp [hc]

/-- Settles O30: the checker is ready for both trailer bytes, and the second has the marker. -/
theorem trailerBytesEndTheBlock : Obligations.TrailerBytesEndTheBlock := by
  rintro s r d ho ⟨g, hg⟩
  have take (hp : s.chk.phase ≠ .payload) {f : Frame} (hk : f.status = Status.ok.code) :
      consumeUp f s = .next (takeBlockByte f { s with upq := s.upq.pop }) :=
    consumeUp_recvData ho ((blockReady_of_ok hk s).trans (checkerReady_trailer hp)) hg
  have marker (hp : s.chk.phase = .crcLo) {f : Frame} (hk : f.status = Status.ok.code) (hl : f.last = true) :=
    takeBlockByte_marker (s := { s with upq := s.upq.pop }) (by rw [hk]; decide) hl
      ((if_pos hk).trans (checkerTake_crcLo f.data hp))
  refine ⟨fun hp => ?_, fun hp hb => ?_, fun hp hb => ?_⟩ <;>
    refine exec_okOps r fun f hk hf hl => (take (by rw [hp]; decide) hk).trans (congrArg _ ?_) <;> subst hf
  · exact (takeBlockByte_ok _ hk hl).trans (checkerTake_crcHi _ hp)
  · exact (marker hp hk hl).trans (if_neg hb)
  · exact (marker hp hk hl).trans (if_pos hb)

/-- Settles O31: the frame is popped whatever the checker's phase. -/
theorem otherStatusDropsTheByte : Obligations.OtherStatusDropsTheByte := by
  rintro s r d ho ⟨g, hg⟩
  have take {f : Frame} (hk : f.status ≠ Status.ok.code) :
      consumeUp f s = .next (takeBlockByte f { s with upq := s.upq.pop }) :=
    consumeUp_recvData ho (blockReady_of_ne_ok hk s) hg
  refine ⟨?_, fun hb => ?_, fun hb => ?_⟩ <;>
    refine exec_ackOps r fun f ht hk _ hl => (take hk).trans (congrArg _ ?_)
  · exact takeBlockByte_other _ ht hk hl
  · exact (takeBlockByte_marker ht hl (if_neg hk)).trans (if_neg hb)
  · exact (takeBlockByte_marker ht hl (if_neg hk)).trans (if_pos hb)

/-! SEND_DATA (R200). -/

/-- Settles O32: of the seven operations one has the status DATA_ACCEPTED. -/
theorem acknowledgementsAreInspected : Obligations.AcknowledgementsAreInspected := by
  rintro s r d l ho ⟨g, hg⟩
  have inspect (f : Frame) : consumeUp f s = .next (inspectAck f { s with upq := s.upq.pop }) :=
    consumeUp_sendData ho hg
  have error (st : Status) (ch : Channel) (h : st.code ≠ Status.dataAccepted.code) :
      consumeUp (upFrame r st ch d l) s =
        .next { s with upq := s.upq.pop, dataf := { s.dataf with werr := true } } :=
    (inspect _).trans (congrArg _ (if_neg (by rw [upFrame_status]; exact h)))
  refine ⟨(inspect _).trans (congrArg _ (if_pos (upFrame_status ..))), fun i hi => ?_⟩
  simp only [List.mem_cons, List.not_mem_nil, or_false] at hi
  rcases hi with rfl | rfl | rfl | rfl | rfl | rfl
  · exact error .ok .cmd (by decide)
  · exact error .ok .data (by decide)
  · exact error .timeout .cmd (by decide)
  · exact error .timeout .data (by decide)
  · exact error .crcError .data (by decide)
  · exact error .writeError .data (by decide)

end Sys2Proof.Machine
end

section
/-! PROOFS. The producer port of `DOWNQ`, state by state: the bytes of a configuration field (R172 to R176), of a
command (R177, R178) and of a write block (R198 to R204). -/

namespace Sys2Proof.Machine

/-! The configuration states. -/

theorem emit_field {f : CfgField} {s : State} (ho : s.ostate = f.state) : emit s = streamField f s := by
  unfold emit
  rw [ho]
  cases f <;> rfl

/-- In a state that only streams, a tick without a host access is the producer port (R170, R172, R177). -/
theorem controlStep_streaming {s : State} (hh : s.cin.host = none)
    (ho : s.ostate = .sendCmd ∨ ∃ f : CfgField, s.ostate = f.state) : controlStep s = emit s := by
  have hne : s.ostate ∉ [OState.idle, .recvResp, .recvData, .sendData] := by
    rcases ho with ho | ⟨f, ho⟩ <;> rw [ho]
    · decide
    · cases f <;> decide
  simp only [List.mem_cons, List.not_mem_nil, or_false, not_or] at hne
  obtain ⟨h0, h1, h2, h3⟩ := hne
  rw [controlStep_noHost hh h0, orchTick_sending h0 h1 h2, consume_streaming h0 h1 h2 h3, andThen_next]

theorem streamField_push {f : CfgField} {s : State} {fr : Frame}
    (hf : fieldFrame s.cfg s.host f s.pos.toNat = some fr) (hr : s.downq.ready = true) :
    streamField f s = .next { s with
      downq := s.downq.push fr
      pos := if fr.last then 0 else s.pos + 1
      ostate := if fr.last then .idle else s.ostate } := by
  unfold streamField
  simp only [hf, hr, if_true]
  cases fr.last <;> rfl

theorem streamField_wait {f : CfgField} {s : State} {fr : Frame}
    (hf : fieldFrame s.cfg s.host f s.pos.toNat = some fr) (hr : s.downq.ready = false) :
    streamField f s = .next s := by
  unfold streamField
  simp only [hf, hr]
  rfl

/-- The tag of a field's byte 0 with the mode values of R95 (R173 to R176). -/
def CfgField.firstTag : CfgField → Byte
  | .cmdtimeout => 0x06
  | .datatimeout => 0x16
  | .blocksize => 0x26
  | .voltage => 0x2E

/-- With the mode values of R95 the tags of a field's bytes follow each other. -/
theorem CfgField.tags_listOrder (f : CfgField) : f.modes.map (tag .listOrder .cmd .write) =
    (List.range f.modes.length).map fun k => f.firstTag + 4 * BitVec.ofNat 8 k := by
  cases f <;> rfl

theorem CfgField.tag_listOrder {f : CfgField} {k : Nat} {m : Mode} (hm : f.modes[k]? = some m) :
    tag .listOrder .cmd .write m = f.firstTag + 4 * BitVec.ofNat 8 k := by
  have hk : k < f.modes.length := (List.getElem?_eq_some_iff.mp hm).1
  have h := congrArg (·[k]?) f.tags_listOrder
  simpa only [List.getElem?_map, hm, List.getElem?_range hk, Option.map_some, Option.some.injEq] using h

theorem fieldFrame_listOrder {c : Config} (h : HostRegs) {f : CfgField} {k : Nat}
    (hb : c.byteOrder = .lsbFirst) (hm : c.modes = .listOrder) (hk : k < f.modes.length) :
    fieldFrame c h f k = some {
      data := (f.value h).extractLsb' (8 * k) 8
      ctrl := f.firstTag + 4 * BitVec.ofNat 8 k
      last := decide (k + 1 = f.modes.length) } := by
  have hget := List.getElem?_eq_getElem hk
  unfold fieldFrame
  rw [hget, hb, hm]
  simp only [CfgField.tag_listOrder hget]
  rfl

/-- Settles O35: each row of the list is a field, with its state, its length and its host register. -/
theorem configStateStreamsField : Obligations.ConfigStateStreamsField := by
  intro s c k hc hb hm hk p hp ho hlt
  obtain ⟨f, rfl⟩ : ∃ f : CfgField, p = (f.state, f.modes.length, f.firstTag, f.value s.host) := by
    simp only [List.mem_cons, List.not_mem_nil, or_false] at hp
    rcases hp with rfl | rfl | rfl | rfl
    exacts [⟨.cmdtimeout, rfl⟩, ⟨.datatimeout, rfl⟩, ⟨.blocksize, rfl⟩, ⟨.voltage, rfl⟩]
  have tick : step (s.withEvent (.control c)) = streamField f (ctlStart c s) := by
    rw [step_control, controlStep_streaming (s := ctlStart c s) hc (.inr ⟨f, ho⟩)]
    exact emit_field ho
  have frame := fieldFrame_listOrder s.host hb hm hlt
  rw [← hk] at frame
  refine ⟨fun hr => ?_, fun hr => ?_⟩
  · rw [tick, streamField_push (s := ctlStart c s) frame hr]
    simp [hk, ho]
  · rw [tick, streamField_wait (s := ctlStart c s) frame hr]

/-! SEND_CMD. -/

theorem emit_sendCmd {s : State} (ho : s.ostate = .sendCmd) : emit s = sendCommand s := by
  unfold emit
  rw [ho]

theorem sendCommand_wait {s : State} {fr : Frame} (hf : commandFrame s = some fr)
    (hr : s.downq.ready = false) : sendCommand s = .next s := by
  unfold sendCommand
  simp only [hf, hr]
  rfl

theorem sendCommand_more {s : State} {fr : Frame} (hf : commandFrame s = some fr)
    (hr : s.downq.ready = true) (hp : s.pos.toNat < 5) :
    sendCommand s = .next { s with downq := s.downq.push fr, pos := s.pos + 1 } := by
  unfold sendCommand
  simp only [hf, hr, if_true, if_pos hp]
  rfl

theorem sendCommand_lastNone {s : State} {fr : Frame} (hf : commandFrame s = some fr)
    (hr : s.downq.ready = true) (hp : ¬s.pos.toNat < 5) (hk : s.desc.kind = kindNone) :
    sendCommand s = .next { s with
      downq := s.downq.push fr
      pos := 0
      cmdf := { s.cmdf with done := true }
      dataf := { s.dataf with done := true }
      ostate := .idle } := by
  unfold sendCommand
  simp only [hf, hr, if_true, if_neg hp, if_pos hk]
  rfl

theorem sendCommand_lastResponse {s : State} {fr : Frame} (hf : commandFrame s = some fr)
    (hr : s.downq.ready = true) (hp : ¬s.pos.toNat < 5) (hk : s.desc.kind ≠ kindNone) :
    sendCommand s = .next { s with
      downq := s.downq.push fr, pos := 0, reqSent := false, ostate := .recvResp } := by
  unfold sendCommand
  simp only [hf, hr, if_true, if_neg hp, if_neg hk]
  rfl

/-- The six command bytes as a list (R109). -/
theorem cmdByte_eq_getElem? (c : Config) (d : Descriptor) (k : Nat) :
    cmdByte c d k = ([0b01#2 ++ d.idx, d.arg.extractLsb' 24 8, d.arg.extractLsb' 16 8,
      d.arg.extractLsb' 8 8, d.arg.extractLsb' 0 8, crc7Cmd c d.idx d.arg ++ 1#1] : List Byte)[k]? := by
  match k with
  | 0 | 1 | 2 | 3 | 4 | 5 => rfl
  | n + 6 => rfl

theorem commandFrame_listOrder {s : State} {b : Byte} {l : Bool} (hm : s.cfg.modes = .listOrder)
    (hb : cmdByte s.cfg s.desc s.pos.toNat = some b)
    (hl : decide (s.pos = 5 ∧ s.desc.kind = kindNone) = l) :
    commandFrame s = some { data := b, ctrl := 0x02, last := l } := by
  rw [commandFrame, hb, Option.map_some, xferFrame, hm, hl]
  rfl

/-- Settles O36: the tick is `sendCommand` with the byte of the list. -/
theorem commandBytesAreEmitted : Obligations.CommandBytesAreEmitted := by
  intro s c k hc hm ho hk hle
  have tick : step (s.withEvent (.control c)) = sendCommand (ctlStart c s) := by
    rw [step_control, controlStep_streaming (s := ctlStart c s) hc (.inl ho)]
    exact emit_sendCmd ho
  rw [tick]
  refine ⟨fun hr => ?_, fun b hr hb => ?_⟩
  · obtain ⟨b, hb⟩ := cmdByte_isSome s.cfg s.desc hle
    rw [← hk] at hb
    exact sendCommand_wait (s := ctlStart c s) (commandFrame_listOrder hm hb rfl) hr
  · rw [← cmdByte_eq_getElem? s.cfg s.desc, ← hk] at hb
    have frame {l : Bool} := commandFrame_listOrder (s := ctlStart c s) (l := l) hm hb
    have sixth (h5 : k = 5) : s.pos = 5 := BitVec.eq_of_toNat_eq (hk.trans h5)
    have past (h5 : k = 5) : ¬s.pos.toNat < 5 := by rw [sixth h5]; decide
    refine ⟨fun h5 => ?_, fun h5 h0 => ?_, fun h5 h0 => ?_⟩
    · have hp : s.pos ≠ 5 := fun h => by rw [← hk, h] at h5; exact absurd h5 (by decide)
      exact sendCommand_more (s := ctlStart c s) (frame (decide_eq_false fun h => hp h.1)) hr (hk.trans_lt h5)
    · exact sendCommand_lastNone (s := ctlStart c s) (frame (decide_eq_true ⟨sixth h5, h0⟩)) hr (past h5) h0
    · exact sendCommand_lastResponse (s := ctlStart c s) (frame (decide_eq_false fun h => h0 h.2)) hr
        (past h5) h0

/-! SEND_DATA. -/

theorem emit_sendData {s : State} (ho : s.ostate = .sendData) : emit s = .next (sendBlockByte s) := by
  unfold emit
  rw [ho]

/-- The generator, by its phase: what it offers (R292, R293). -/
theorem genOffer_payload {s : State} (h : s.gen.phase = .payload) :
    genOffer s = s.cin.di.map fun b => (b, false) := by
  unfold genOffer
  rw [h]

theorem genOffer_crcHi {s : State} (h : s.gen.phase = .crcHi) :
    genOffer s = some (byteAt s.gen.crc 1, false) := by
  unfold genOffer
  rw [h]

theorem genOffer_crcLo {s : State} (h : s.gen.phase = .crcLo) :
    genOffer s = some (byteAt s.gen.crc 0, true) := by
  unfold genOffer
  rw [h]

/-- Only a payload byte asks for `di_ready` (R199). -/
theorem genTakes_payload {s : State} (h : s.gen.phase = .payload) : genTakes s = s.downq.ready := by
  rw [genTakes, h]
  rfl

theorem genTakes_trailer {s : State} (h : s.gen.phase ≠ .payload) : genTakes s = false := by
  simp [genTakes, h]

theorem genAdvance_payload {g : Generator} (h : g.phase = .payload) (c : Config) (n : BitVec 16) (b : Byte) :
    genAdvance c n b g =
      if g.cnt.toNat + 1 = n.toNat then
        { crc := crc16Update c.crc16Poly g.crc b, cnt := 0, phase := .crcHi }
      else { crc := crc16Update c.crc16Poly g.crc b, cnt := g.cnt + 1, phase := .payload } := by
  unfold genAdvance
  rw [h]

theorem genAdvance_crcHi {g : Generator} (h : g.phase = .crcHi) (c : Config) (n : BitVec 16) (b : Byte) :
    genAdvance c n b g = { g with phase := .crcLo } := by
  unfold genAdvance
  rw [h]

theorem genAdvance_crcLo {g : Generator} (h : g.phase = .crcLo) (c : Config) (n : BitVec 16) (b : Byte) :
    genAdvance c n b g = { g with phase := .payload, crc := 0 } := by
  unfold genAdvance
  rw [h]

/-- A byte of the generator on its way down, with the mode values of R95 (R110, R198). -/
theorem sendBlockByte_listOrder {s : State} {b : Byte} {last ready : Bool} {g : Generator}
    (hm : s.cfg.modes = .listOrder) (hr : s.downq.ready = true) (ho : genOffer s = some (b, last))
    (ht : genTakes s = ready) (hg : genAdvance s.cfg s.host.blocksize b s.gen = g) :
    sendBlockByte s =
      (let u := { s with
        out := { s.out with diReady := ready }
        downq := s.downq.push { data := b, ctrl := 0x03, last := last }
        gen := g }
       if last then endBlock u else u) := by
  have frame : xferFrame s.cfg .data .write b last = { data := b, ctrl := 0x03, last := last } := by
    rw [xferFrame, hm]
    rfl
  rw [sendBlockByte_push hr ho, frame, ht, hg]

/-- Settles O38: the tick is `sendBlockByte`, which waits or pushes what the generator offers in its phase. -/
theorem writeBlockIsEmitted : Obligations.WriteBlockIsEmitted := by
  intro s c hc hf hm ho
  have tick : step (s.withEvent (.control c)) = .next (sendBlockByte (ctlStart c s)) := by
    have hne : s.ostate ≠ .idle := by rw [ho]; decide
    rw [step_control, controlStep_noHost (s := ctlStart c s) hc hne,
      orchTick_noHead (s := ctlStart c s) hf hne, emit_sendData (s := ctlStart c s) ho]
  have takes (hr : s.downq.ready = true) (hp : s.gen.phase = .payload) : genTakes (ctlStart c s) = true :=
    (genTakes_payload hp).trans hr
  have push {b : Byte} {last ready : Bool} {g : Generator} (hr : s.downq.ready = true) :=
    sendBlockByte_listOrder (s := ctlStart c s) (b := b) (last := last) (ready := ready) (g := g) hm hr
  have pushLo (hr : s.downq.ready = true) (hp : s.gen.phase = .crcLo) :=
    push hr (genOffer_crcLo hp) (genTakes_trailer (by rw [ctlStart_gen, hp]; decide)) (genAdvance_crcLo hp ..)
  rw [tick]
  refine ⟨fun hr => congrArg _ ?_, fun b hr hp hd => congrArg _ ?_, fun hr hp hd => congrArg _ ?_,
    fun hr hp => congrArg _ ?_, fun hr hp hb => congrArg _ ?_, fun hr hp hb => congrArg _ ?_⟩
  · rw [sendBlockByte_wait (s := ctlStart c s) (.inl hr)]
    simp [genTakes, hr, CtlOut.quiet]
  · have offer : genOffer (ctlStart c s) = some (b, false) := by
      rw [genOffer_payload (s := ctlStart c s) hp, ctlStart_cin, hd, Option.map_some]
    exact push hr offer (takes hr hp) (genAdvance_payload hp ..)
  · have offer : genOffer (ctlStart c s) = none := by
      rw [genOffer_payload (s := ctlStart c s) hp, ctlStart_cin, hd, Option.map_none]
    rw [sendBlockByte_wait (s := ctlStart c s) (.inr offer), takes hr hp]
    rfl
  · exact push hr (genOffer_crcHi hp) (genTakes_trailer (by rw [ctlStart_gen, hp]; decide))
      (genAdvance_crcHi hp ..)
  · exact (pushLo hr hp).trans (endBlock_more hb)
  · exact (pushLo hr hp).trans (endBlock_last hb)

end Sys2Proof.Machine
end

section
/-! PROOFS. The bus framer, tick by tick: what each down operation comes to by the machine that is out of IDLE
(R223, R238 to R253), and what DATAPATH does with a frame of its own (R262, R263). -/

namespace Sys2Proof.Machine

/-! Which machine an operation runs (R223). -/

theorem exec_fdCmdRd (d : Byte) (l : Bool) (s : State) :
    exec (.fdCmdRd d l) s = xferTick (xferFrame s.cfg .cmd .read d l)
      (fun u => .next { idleTick u with reader := u.reader.start (xferFrame s.cfg .cmd .read d l) }) s := rfl

theorem exec_fdCmdWr (d : Byte) (l : Bool) (s : State) :
    exec (.fdCmdWr d l) s = xferTick (xferFrame s.cfg .cmd .write d l)
      (fun u => .next { idleTick u with writer := u.writer.start }) s := rfl

theorem exec_fdDataRd (d : Byte) (l : Bool) (s : State) :
    exec (.fdDataRd d l) s = xferTick (xferFrame s.cfg .data .read d l) datapathRead s := rfl

theorem exec_fdDataWr (d : Byte) (l : Bool) (s : State) :
    exec (.fdDataWr d l) s = xferTick (xferFrame s.cfg .data .write d l) (datapathWrite l) s := rfl

/-- An XFER operation beside a machine that is out of IDLE. -/
theorem exec_xferOps_busy {s : State} {d : Byte} {l : Bool} {i : Instr}
    (hi : i ∈ [Instr.fdCmdRd d l, .fdCmdWr d l, .fdDataRd d l, .fdDataWr d l])
    (h : ¬(s.writer.st = .idle ∧ s.reader.st = .idle)) :
    ∃ f, exec i s = machinesTick (some f) s := by
  simp only [List.mem_cons, List.not_mem_nil, or_false] at hi
  rcases hi with rfl | rfl | rfl | rfl
  · exact ⟨_, (exec_fdCmdRd d l s).trans (xferTick_busy _ _ h)⟩
  · exact ⟨_, (exec_fdCmdWr d l s).trans (xferTick_busy _ _ h)⟩
  · exact ⟨_, (exec_fdDataRd d l s).trans (xferTick_busy _ _ h)⟩
  · exact ⟨_, (exec_fdDataWr d l s).trans (xferTick_busy _ _ h)⟩

theorem exec_fdCmdRd_reader (d : Byte) (l : Bool) {s : State} (hw : s.writer.st = .idle)
    (hr : s.reader.st ≠ .idle) : exec (.fdCmdRd d l) s = readerTick s := by
  rw [exec_fdCmdRd, xferTick_busy _ _ fun h => hr h.2, machinesTick_reader _ hw]

theorem exec_fdCmdWr_writer (d : Byte) (l : Bool) {s : State} (hw : s.writer.st ≠ .idle)
    (hr : s.reader.st = .idle) :
    exec (.fdCmdWr d l) s = writerTick (some (xferFrame s.cfg .cmd .write d l)) s := by
  rw [exec_fdCmdWr, xferTick_busy _ _ fun h => hw h.1, machinesTick_writer _ hw hr]

/-- Settles O13: the dispatch runs what the operation starts. -/
theorem dispatchStartsWriterOrReader : Obligations.DispatchStartsWriterOrReader := by
  intro s d l hw hr
  constructor
  · rw [exec_fdCmdWr, xferTick_idle _ _ hw hr]
    rfl
  · rw [exec_fdCmdRd, xferTick_idle _ _ hw hr]
    rfl

/-- Settles O25: an XFER frame is not looked at, so the tick is the trailing clock of the machine out of IDLE. -/
theorem busyFramerStartsNothing : Obligations.BusyFramerStartsNothing := by
  intro s d l
  refine ⟨fun hw hr i hi => ?_, fun hw hr i hi => ?_⟩
  · obtain ⟨f, hf⟩ := exec_xferOps_busy hi fun h => by rw [hr] at h; cases h.2
    exact (hf.trans (machinesTick_reader _ hw)).trans (readerTick_clk8 hr)
  · have hbusy : s.writer.st ≠ .idle := by rw [hw]; decide
    obtain ⟨f, hf⟩ := exec_xferOps_busy hi fun h => hbusy h.1
    exact (hf.trans (machinesTick_writer _ hbusy hr)).trans (writerTick_clk8 _ hw)

/-! The command writer. -/

/-- Settles O14: the tick is the writer's, by its bit index. -/
theorem writerShiftsMsbFirst : Obligations.WriterShiftsMsbFirst := by
  intro s b l hw hr
  have tick := exec_fdCmdWr_writer b l (by rw [hw]; decide) hr
  refine ⟨fun hb => tick.trans (writerTick_bit _ hw hb), ?_⟩
  rintro hb ⟨g, hg⟩
  rw [tick, writerTick_lastBit _ hw hb hg, Writer.byteDone]
  rfl

/-! The sampler and the command reader. -/

/-- The first enabled tick arms the sampler (R251). -/
theorem Sampler.sample_idle {x : Sampler} (b : Bool) (h : x.st = .idle) :
    (x.sample b).1 = { x with st := .readstart } := by
  rw [Sampler.sample, h]

/-- No start bit on the line (R252). -/
theorem Sampler.sample_high {x : Sampler} (h : x.st = .readstart) : (x.sample true).1 = x := by
  rw [Sampler.sample, h]
  rfl

/-- The start bit (R252, R254). -/
theorem Sampler.sample_startBit {x : Sampler} (h : x.st = .readstart) :
    (x.sample false).1 = { st := .read, shift := 0, cnt := 1 } := by
  rw [Sampler.sample, h]
  rfl

/-- A bit of a byte; the count of three bits is 0 again after the eighth (R253). -/
theorem Sampler.sample_bit {x : Sampler} (b : Bool) (h : x.st = .read) :
    (x.sample b).1 =
      { st := .read, shift := x.shift.extractLsb' 0 7 ++ BitVec.ofBool b, cnt := x.cnt + 1 } := by
  by_cases hc : x.cnt = 7
  · rw [x.sample_last b h hc, h, hc]
    rfl
  · rw [x.sample_more b h hc, h]

/-- Settles O18: the tick is the reader's, with the sampler's by its state. -/
theorem startBitWaitTick : Obligations.StartBitWaitTick := by
  intro s n l hw hr
  refine ⟨(s.sampler.sample s.bin.cmdI).1, ?_, fun hx => s.sampler.sample_idle _ hx, fun hx hc => ?_,
    fun hx hc => ?_, fun hx => s.sampler.sample_bit _ hx⟩
  · rw [exec_fdCmdRd_reader n l hw (by rw [hr]; decide), readerTick_wait hr]
    rfl
  · rw [hc, s.sampler.sample_high hx]
  · rw [hc, s.sampler.sample_startBit hx]

/-- Settles O20: the tick is the reader's, with `UPQ` ready or not. -/
theorem timeoutIsReportedOnce : Obligations.TimeoutIsReportedOnce := by
  intro s n l hw hr
  have tick := exec_fdCmdRd_reader n l hw (by rw [hr]; decide)
  refine ⟨?_, fun hq => tick.trans (readerTick_timeoutFull hr hq)⟩
  rintro hq ⟨g, hg⟩
  exact tick.trans (readerTick_timeout hr hq hg)

/-- With `READLEN_BIAS = 1` the last byte is the one numbered `r_toread` (R107, R246). -/
theorem Reader.lastByte_eq {c : Config} (r : Reader) (hb : c.readlenBias = 1) :
    r.lastByte c = decide (r.cread = r.toread) := by
  rw [Reader.lastByte, hb]
  exact decide_eq_decide.mpr ⟨fun h => BitVec.eq_of_toNat_eq (Nat.succ.inj h), fun h => by rw [h]; rfl⟩

/-- Settles O21: the stall, a bit that completes no byte, and a byte that is not or is the last. -/
theorem responseByteIsForwarded : Obligations.ResponseByteIsForwarded := by
  intro s n l hw hr
  have tick := exec_fdCmdRd_reader n l hw (by rw [hr]; decide)
  refine ⟨fun hq => tick.trans (readerTick_full hr hq), fun hx hc hq => ?_, fun hb hx hc hq hl => ?_, ?_⟩
  · have hs := s.sampler.sample_more s.bin.cmdI hx hc
    rw [tick, readerTick_sample hr hq (congrArg Prod.snd hs), hs, hx]
    rfl
  · have hs := s.sampler.sample_last s.bin.cmdI hx hc
    rw [tick, readerTick_byte hr hq (congrArg Prod.snd hs), forwardByte_more, hs, hx]
    · rfl
    · exact (s.reader.lastByte_eq hb).trans (decide_eq_false hl)
  · rintro hb hx hc hq hl ⟨g, hg⟩
    have hs := s.sampler.sample_last s.bin.cmdI hx hc
    rw [tick, readerTick_byte hr hq (congrArg Prod.snd hs), forwardByte_last (g := g), hs, hx]
    · rfl
    · exact (s.reader.lastByte_eq hb).trans (decide_eq_true hl)
    · exact hg

/-! DATAPATH, a read request (R262). -/

theorem datapathRead_wait {s : State}
    (h : s.upq.ready = false ∨ s.bin.dp = .wait ∨ s.bin.dp = .take ∨ ∃ a p, s.bin.dp = .ack a p) :
    datapathRead s = .next { s with pads := datapathPads s, sampler := .off } := by
  unfold datapathRead
  rcases h with hq | hd | hd | ⟨a, p, hd⟩
  · simp only [hq, Bool.false_eq_true, if_false]
  all_goals simp only [hd, ite_self]

theorem datapathRead_more {s : State} {b : Byte} (hq : s.upq.ready = true)
    (hd : s.bin.dp = .deliver b) (hn : s.datapath.sent + 1 < s.fcfg.blocksize.toNat + 2) :
    datapathRead s = .next { s with
      pads := datapathPads s
      sampler := .off
      upq := s.upq.push { data := b, ctrl := utag .data Status.ok.code, last := false }
      datapath := { s.datapath with sent := s.datapath.sent + 1 } } := by
  unfold datapathRead
  simp only [hq, hd, if_true, decide_eq_false (Nat.not_le.mpr hn), Bool.false_eq_true, if_false]
  rfl

theorem datapathRead_last {s : State} {b : Byte} {g : Frame} (hq : s.upq.ready = true)
    (hd : s.bin.dp = .deliver b) (hn : s.fcfg.blocksize.toNat + 2 ≤ s.datapath.sent + 1)
    (hg : s.downq.head? = some g) :
    datapathRead s = .next { s with
      pads := datapathPads s
      sampler := .off
      upq := s.upq.push { data := b, ctrl := utag .data Status.ok.code, last := true }
      downq := s.downq.pop
      datapath := .free } := by
  unfold datapathRead
  simp only [hq, hd, if_true, decide_eq_true hn]
  rw [popDown_of_head (f := g)]
  · rfl
  · exact hg

theorem datapathRead_timeout {s : State} {g : Frame} (hq : s.upq.ready = true)
    (hd : s.bin.dp = .timeout) (hg : s.downq.head? = some g) :
    datapathRead s = .next { s with
      pads := datapathPads s
      sampler := .off
      upq := s.upq.push { data := 0, ctrl := utag .data Status.timeout.code, last := true }
      downq := s.downq.pop
      datapath := .free } := by
  unfold datapathRead
  simp only [hq, hd, if_true]
  rw [popDown_of_head (f := g)]
  · rfl
  · exact hg

/-- Settles O23: DATAPATH's tick with a read request, by its choice. -/
theorem datapathServesReadRequest : Obligations.DatapathServesReadRequest := by
  intro s d l hw hr
  have tick := (exec_fdDataRd d l s).trans (xferTick_idle _ _ hw hr)
  refine ⟨fun h => tick.trans (datapathRead_wait h),
    fun b hq hd hn => tick.trans (datapathRead_more hq hd hn), ?_, ?_⟩
  · rintro b hq hd hn ⟨g, hg⟩
    exact tick.trans (datapathRead_last hq hd hn.ge hg)
  · rintro hq hd ⟨g, hg⟩
    exact tick.trans (datapathRead_timeout hq hd hg)

/-! DATAPATH, a byte of a write block (R263). -/

theorem datapathWrite_take {last : Bool} {s : State} {g : Frame} (hd : s.bin.dp = .take)
    (h : last = false ∨ s.datapath.acked = true) (hg : s.downq.head? = some g) :
    datapathWrite last s = .next { s with
      pads := datapathPads s, sampler := .off, downq := s.downq.pop, datapath := .free } := by
  have hc : (!last || s.datapath.acked) = true := by simpa using h
  unfold datapathWrite
  simp only [hd, hc, if_true]
  rw [popDown_of_head (f := g)]
  · rfl
  · exact hg

theorem datapathWrite_wait {last : Bool} {s : State}
    (h : (s.bin.dp = .take ∧ last = true ∧ s.datapath.acked = false) ∨
      (∃ st p, s.bin.dp = .ack st p ∧
        (last = false ∨ s.datapath.acked = true ∨ s.upq.ready = false)) ∨
      s.bin.dp = .wait ∨ s.bin.dp = .timeout ∨ (∃ b, s.bin.dp = .deliver b)) :
    datapathWrite last s = .next { s with pads := datapathPads s, sampler := .off } := by
  unfold datapathWrite
  rcases h with ⟨hd, hl, ha⟩ | ⟨st, p, hd, hc⟩ | hd | hd | ⟨b, hd⟩
  · simp only [hd, hl, ha]
    rfl
  · have hc : (last && !s.datapath.acked && s.upq.ready) = false := by
      rcases hc with hc | hc | hc <;> simp [hc]
    simp only [hd, hc, Bool.false_eq_true, if_false]
  all_goals simp only [hd]

theorem datapathWrite_ackPop {s : State} {st : BitVec 4} {g : Frame} (hd : s.bin.dp = .ack st true)
    (ha : s.datapath.acked = false) (hq : s.upq.ready = true) (hg : s.downq.head? = some g) :
    datapathWrite true s = .next { s with
      pads := datapathPads s
      sampler := .off
      upq := s.upq.push (ackFrame st)
      downq := s.downq.pop
      datapath := .free } := by
  unfold datapathWrite
  simp only [hd, ha, hq, Bool.not_false, Bool.and_self, if_true]
  rw [popDown_of_head (f := g)]
  · rfl
  · exact hg

theorem datapathWrite_ack {s : State} {st : BitVec 4} (hd : s.bin.dp = .ack st false)
    (ha : s.datapath.acked = false) (hq : s.upq.ready = true) :
    datapathWrite true s = .next { s with
      pads := datapathPads s
      sampler := .off
      upq := s.upq.push (ackFrame st)
      datapath := { s.datapath with acked := true } } := by
  unfold datapathWrite
  simp only [hd, ha, hq, Bool.not_false, Bool.and_self, if_true]
  rfl

/-- Settles O24: DATAPATH's tick with a byte of a write block, by its choice. -/
theorem datapathServesWriteByte : Obligations.DatapathServesWriteByte := by
  rintro s d l hw hr ⟨g, hg⟩
  have tick := (exec_fdDataWr d l s).trans (xferTick_idle _ _ hw hr)
  refine ⟨fun hd h => tick.trans (datapathWrite_take hd h hg), fun h => tick.trans (datapathWrite_wait h),
    fun st hd hl ha hq => ?_, fun st hd hl ha hq => ?_⟩
  · subst hl
    exact tick.trans (datapathWrite_ackPop hd ha hq hg)
  · subst hl
    exact tick.trans (datapathWrite_ack hd ha hq)

end Sys2Proof.Machine
end

section
/-! PROOFS. The configuration latch in the states in which it runs: both machines IDLE, and the trailing clocks of
either (R224, R241, R247). -/

namespace Sys2Proof.Machine

/-- The latch beside a machine whose tick leaves the head, the parameters and the Configuration copy alone. -/
theorem latchTick_beside {m : Mode} {b : Byte} {s u : State} {g : Frame}
    (hu : machinesTick none s = .next u) (hd : u.downq = s.downq) (hg : s.downq.head? = some g) :
    latchTick m b s = .next { u with
      downq := s.downq.pop, fcfg := latchByte s.cfg.byteOrder m b s.fcfg } := by
  have hM := machinesTick_move hu
  rw [latchTick, hu, andThen_next, popDown_of_head (hd ▸ hg), andThen_next, hd, hM.cfg, hM.fcfg]

theorem latchTick_writerClk8 (m : Mode) (b : Byte) {s : State} {g : Frame}
    (hw : s.writer.st = .cmdClk8) (hr : s.reader.st = .idle) (hg : s.downq.head? = some g) :
    latchTick m b s = .next { s with
      fcfg := latchByte s.cfg.byteOrder m b s.fcfg
      downq := s.downq.pop
      sampler := .off
      pads := drivePads s true
      writer := s.writer.clk8Tick } :=
  latchTick_beside ((machinesTick_writer _ (by rw [hw]; decide) hr).trans (writerTick_clk8 _ hw)) rfl hg

theorem latchTick_readerClk8 (m : Mode) (b : Byte) {s : State} {g : Frame}
    (hw : s.writer.st = .idle) (hr : s.reader.st = .cmdClk8) (hg : s.downq.head? = some g) :
    latchTick m b s = .next { s with
      fcfg := latchByte s.cfg.byteOrder m b s.fcfg
      downq := s.downq.pop
      sampler := .off
      pads := drivePads s true
      reader := s.reader.clk8Tick } :=
  latchTick_beside ((machinesTick_reader _ hw).trans (readerTick_clk8 hr)) rfl hg

/-- The three states in which a configuration frame can be at the head (R257). -/
def LatchRuns (s : State) : Prop :=
  (s.writer.st = .idle ∧ s.reader.st = .idle) ∨ (s.writer.st = .cmdClk8 ∧ s.reader.st = .idle) ∨
    (s.writer.st = .idle ∧ s.reader.st = .cmdClk8)

/-- The frame is popped, the copy takes the byte, and the pad shows the voltage mode from before (R224, R235). -/
theorem latchTick_takes (m : Mode) (b : Byte) {s : State} {g : Frame} (h : LatchRuns s)
    (hg : s.downq.head? = some g) :
    ∃ t, latchTick m b s = .next t ∧ t.downq = s.downq.pop ∧
      t.fcfg = latchByte s.cfg.byteOrder m b s.fcfg ∧ t.pads.voltageSel = s.fcfg.voltage := by
  rcases h with ⟨hw, hr⟩ | ⟨hw, hr⟩ | ⟨hw, hr⟩
  · exact ⟨_, latchTick_idle m b hw hr hg, rfl, rfl, rfl⟩
  · exact ⟨_, latchTick_writerClk8 m b hw hr hg, rfl, rfl, rfl⟩
  · exact ⟨_, latchTick_readerClk8 m b hw hr hg, rfl, rfl, rfl⟩

/-- A byte set is a byte written, and no other (R224). -/
theorem writesByte_setByteAt {w k : Nat} (v : BitVec w) (b : Byte) (h : 8 * k + 8 ≤ w) :
    WritesByte v (setByteAt v k b) k b :=
  ⟨byteAt_setByteAt_same v k b h, fun j hj => byteAt_setByteAt_other v k j b hj⟩

/-- A configuration frame whose mode names byte `k` of the field `v`, which `put` replaces. -/
theorem latchTick_writesByte {b : Byte} {s : State} {g : Frame} (h : LatchRuns s)
    (hg : s.downq.head? = some g) (ho : s.cfg.byteOrder = .lsbFirst) {w k : Nat} {v : BitVec w}
    {put : BitVec w → FramerRegs} (m : Mode) (hk : 8 * k + 8 ≤ w)
    (hm : latchByte .lsbFirst m b s.fcfg = put (setByteAt v k b)) :
    ∃ t v', latchTick m b s = .next t ∧ t.downq = s.downq.pop ∧ t.fcfg = put v' ∧ WritesByte v v' k b := by
  obtain ⟨t, ht, hd, hf, _⟩ := latchTick_takes m b h hg
  rw [ho] at hf
  exact ⟨t, _, ht, hd, hf.trans hm, writesByte_setByteAt v b hk⟩

/-- Settles O10: the mode of each frame names its byte (`latchTick_writesByte`). -/
theorem configurationFramesLatch : Obligations.ConfigurationFramesLatch := by
  intro s w d l g h hg ho
  simp only [List.mem_cons, List.not_mem_nil, or_false, forall_eq_or_imp, forall_eq]
  have byte {n k} {v : BitVec n} {put} := latchTick_writesByte (b := d) (k := k) (v := v) (put := put) h hg ho
  refine ⟨⟨?_, ?_, ?_, ?_⟩, ⟨?_, ?_, ?_, ?_⟩, ⟨?_, ?_⟩, ?_⟩
  · exact byte .tc0 (by decide) rfl
  · exact byte .tc1 (by decide) rfl
  · exact byte .tc2 (by decide) rfl
  · exact byte .tc3 (by decide) rfl
  · exact byte .td0 (by decide) rfl
  · exact byte .td1 (by decide) rfl
  · exact byte .td2 (by decide) rfl
  · exact byte .td3 (by decide) rfl
  · exact byte .bs0 (by decide) rfl
  · exact byte .bs1 (by decide) rfl
  · exact latchTick_takes .volt d h hg

/-- Every configuration frame is the latch's, under the mode it names (R224). -/
theorem exec_configOps {w : BitVec 2} {d : Byte} {l : Bool} {i : Instr} (hi : i ∈ configOps w d l) :
    ∃ m, exec i = latchTick m d := by
  simp only [configOps, List.mem_cons, List.not_mem_nil, or_false] at hi
  rcases hi with rfl | rfl | rfl | rfl | rfl | rfl | rfl | rfl | rfl | rfl | rfl <;> exact ⟨_, rfl⟩

/-- Settles O11: the latch's tick in each of the three states, for the mode of the frame. -/
theorem latchRunsDuringTrailingClocks : Obligations.LatchRunsDuringTrailingClocks := by
  intro s w d l g hg i hi
  obtain ⟨m, hm⟩ := exec_configOps hi
  rw [hm]
  refine ⟨latchByte s.cfg.byteOrder m d s.fcfg, latchTick_idle m d rfl rfl hg, fun hw hr => ?_, fun hw hr => ?_⟩
  · exact latchTick_writerClk8 m d hw hr hg
  · exact latchTick_readerClk8 m d hw hr hg

end Sys2Proof.Machine
end

section
/-! PROOFS. Runs of bus ticks of a fixed length: the preamble (R239), the trailing clocks (R241, R247), and the
wait for a start bit that does not come (R245, R355). -/

namespace Sys2Proof.Machine

/-! The preamble. -/

/-- From any count on: the preamble's ticks that are left, and then the byte begins (R239). -/
theorem busRun_preamble {f : Frame} : ∀ (inputs : List BusIn) (s : State),
    s.cfg.modes.injective = true → s.downq.head? = some f →
    f.ctrl = tag s.cfg.modes .cmd .write .xfer → s.writer.st = .init → s.reader.st = .idle →
    s.writer.cnt.toNat ≤ 79 → inputs.length + s.writer.cnt.toNat = 80 →
    ∃ t pads, busRun inputs s = .next (t, pads) ∧
      t.writer = { st := .cmdWrite, initDone := true, cnt := 0, bit := 0 } ∧
      t.downq = s.downq ∧ t.upq = s.upq ∧ pads = List.replicate inputs.length (initPads s)
  | [], s, _, _, _, _, _, hc, hn => by simp at hn; omega
  | i :: rest, s, hi, hf, ht, hw, hr, hc, hn => by
    rw [List.length_cons] at hn
    have tick := (busTick_writer i hi hf ht (by rw [hw]; decide) hr).trans
      (writerTick_init (s := s.withBus i) (some f) hw)
    by_cases hlast : s.writer.cnt = 79
    · have hnil : rest = [] := List.eq_nil_of_length_eq_zero (by bv_omega)
      subst hnil
      exact ⟨_, _, busRun_cons tick rfl, if_pos hlast, rfl, rfl, rfl⟩
    · have hinit : s.writer.initTick = { s.writer with cnt := s.writer.cnt + 1 } := if_neg hlast
      rw [withBus_writer, hinit] at tick
      obtain ⟨t, pads, hrun, hwt, hd, hu, hp⟩ := busRun_preamble rest
        { s.withBus i with
          sampler := .off
          pads := initPads (s.withBus i)
          writer := { s.writer with cnt := s.writer.cnt + 1 } } hi hf ht hw hr
        (by show (s.writer.cnt + 1).toNat ≤ 79; bv_omega)
        (by show rest.length + (s.writer.cnt + 1).toNat = 80; bv_omega)
      exact ⟨t, _, busRun_cons tick hrun, hwt, hd, hu, congrArg (initPads s :: ·) hp⟩

/-- Settles O15: a run of INIT from count 0 (`busRun_preamble`). -/
theorem preambleLastsEightyClocks : Obligations.PreambleLastsEightyClocks := by
  intro s f inputs hi hw hc hr hf ht hn
  have h := busRun_preamble inputs s hi hf ht hw hr (by rw [hc]; decide) (by rw [hc, hn]; rfl)
  rw [hn] at h
  exact h

/-! The trailing clocks. -/

/-- `n` trailing clocks are left, of the writer or of the reader (R241, R247). -/
def TrailingLeft : Nat → State → Prop
  | 0, s => s.writer.st = .idle ∧ s.reader.st = .idle
  | n + 1, s =>
    (s.writer.st = .cmdClk8 ∧ s.writer.cnt.toNat + n = 7 ∧ s.reader.st = .idle) ∨
    (s.reader.st = .cmdClk8 ∧ s.reader.cnt.toNat + n = 7 ∧ s.writer.st = .idle)

/-- With no head visible a bus tick is the machines' (R223). -/
theorem busTick_noHead (i : BusIn) {s : State} (hf : s.downq.head? = none) :
    busTick i s = machinesTick none (s.withBus i) := by
  rw [busTick, busStep_eq, withBus_downq, hf]

theorem Writer.clk8Tick_last {w : Writer} (h : w.cnt.toNat = 7) :
    w.clk8Tick = { w with st := .idle, cnt := 0 } :=
  if_pos (BitVec.eq_of_toNat_eq h)

theorem Writer.clk8Tick_more {w : Writer} (h : w.cnt.toNat < 7) :
    w.clk8Tick = { w with cnt := w.cnt + 1 } :=
  if_neg (by bv_omega)

theorem Reader.clk8Tick_last {r : Reader} (h : r.cnt.toNat = 7) :
    r.clk8Tick = { r with st := .idle, cnt := 0 } :=
  if_pos (BitVec.eq_of_toNat_eq h)

theorem Reader.clk8Tick_more {r : Reader} (h : r.cnt.toNat < 7) :
    r.clk8Tick = { r with cnt := r.cnt + 1 } :=
  if_neg (by bv_omega)

/-- One trailing clock: the line is driven high, and one fewer is left. -/
theorem busTick_trailing (i : BusIn) {n : Nat} {s : State} (hf : s.downq.head? = none)
    (h : TrailingLeft (n + 1) s) :
    ∃ t, busTick i s = .next t ∧ t.pads = drivePads s true ∧ t.downq = s.downq ∧ t.upq = s.upq ∧
      TrailingLeft n t := by
  rw [busTick_noHead i hf]
  rcases h with ⟨hw, hc, hr⟩ | ⟨hr, hc, hw⟩
  · refine ⟨_, (machinesTick_writer (s := s.withBus i) none (by rw [withBus_writer, hw]; decide) hr).trans
      (writerTick_clk8 (s := s.withBus i) none hw), rfl, rfl, rfl, ?_⟩
    cases n with
    | zero => exact ⟨congrArg Writer.st (Writer.clk8Tick_last hc), hr⟩
    | succ n =>
      rw [withBus_writer, Writer.clk8Tick_more (by omega)]
      exact .inl ⟨hw, by simp only; bv_omega, hr⟩
  · refine ⟨_, (machinesTick_reader (s := s.withBus i) none hw).trans
      (readerTick_clk8 (s := s.withBus i) hr), rfl, rfl, rfl, ?_⟩
    cases n with
    | zero => exact ⟨hw, congrArg Reader.st (Reader.clk8Tick_last hc)⟩
    | succ n =>
      rw [withBus_reader, Reader.clk8Tick_more (by omega)]
      exact .inr ⟨hr, by simp only; bv_omega, hw⟩

/-- A run of as many ticks as trailing clocks are left. -/
theorem busRun_trailing : ∀ (inputs : List BusIn) (s : State), s.downq.head? = none →
    TrailingLeft inputs.length s →
    ∃ t pads, busRun inputs s = .next (t, pads) ∧ drivenBits pads = List.replicate inputs.length true ∧
      t.writer.st = .idle ∧ t.reader.st = .idle ∧ t.downq = s.downq ∧ t.upq = s.upq
  | [], s, _, ⟨hw, hr⟩ => ⟨s, [], rfl, rfl, hw, hr, rfl, rfl⟩
  | i :: rest, s, hf, h => by
    obtain ⟨u, hu, hp, hd, hq, hleft⟩ := busTick_trailing i hf h
    obtain ⟨t, pads, hrun, hbits, hw, hr, hd', hq'⟩ := busRun_trailing rest u (hd ▸ hf) hleft
    refine ⟨t, _, busRun_cons hu hrun, ?_, hw, hr, hd'.trans hd, hq'.trans hq⟩
    rw [hp, drivenBits_drivePads, hbits]
    rfl

/-- Settles O17: eight trailing clocks are left (`busRun_trailing`). -/
theorem trailingClocksAreEight : Obligations.TrailingClocksAreEight := by
  intro s inputs hf hn h
  have hleft : TrailingLeft inputs.length s := by
    rw [hn]
    rcases h with ⟨hw, hc, hr⟩ | ⟨hr, hc, hw⟩
    · exact .inl ⟨hw, by rw [hc]; rfl, hr⟩
    · exact .inr ⟨hr, by rw [hc]; rfl, hw⟩
  have hrun := busRun_trailing inputs s hf hleft
  rwa [hn] at hrun

/-! The wait for the start bit. -/

/-- While the line is high the sampler does not find a start bit (R251, R252). -/
theorem Sampler.sample_high_ne_read {x : Sampler} (h : x.st ≠ .read) : (x.sample true).1.st ≠ .read := by
  cases hx : x.st with
  | idle => rw [x.sample_idle true hx]; exact nofun
  | readstart => rw [x.sample_high hx, hx]; exact nofun
  | read => exact absurd hx h

/-- From any count on, with the line high: the reader counts up to the threshold, and gives up in the tick after
(R245, R355). -/
theorem busRun_waits {f : Frame} : ∀ (inputs : List BusIn) (s : State),
    s.cfg.modes.injective = true → s.downq.head? = some f →
    f.ctrl = tag s.cfg.modes .cmd .read .xfer → s.writer.st = .idle → s.reader.st = .cmdReadstart →
    s.sampler.st ≠ .read → (∀ b ∈ inputs, b.cmdI = true) →
    s.reader.timeout.toNat ≤ s.fcfg.cmdtimeout.toNat →
    inputs.length + s.reader.timeout.toNat ≤ s.fcfg.cmdtimeout.toNat + 1 →
    ∃ t pads, busRun inputs s = .next (t, pads) ∧ t.upq = s.upq ∧ t.downq = s.downq ∧
      (∀ p ∈ pads, p.clkEn = true) ∧
      (inputs.length + s.reader.timeout.toNat ≤ s.fcfg.cmdtimeout.toNat →
        t.reader.st = .cmdReadstart ∧ t.reader.timeout.toNat = inputs.length + s.reader.timeout.toNat) ∧
      (inputs.length + s.reader.timeout.toNat = s.fcfg.cmdtimeout.toNat + 1 → t.reader.st = .timeout)
  | [], s, _, _, _, _, hr, _, _, hle, _ =>
    ⟨s, [], rfl, rfl, rfl, List.forall_mem_nil _, fun _ => ⟨hr, (Nat.zero_add _).symm⟩,
      fun h => by simp at h; omega⟩
  | i :: rest, s, hi, hf, ht, hw, hr, hx, hhigh, hle, hn => by
    obtain ⟨hline, hhigh⟩ := List.forall_mem_cons.mp hhigh
    rw [List.length_cons] at hn ⊢
    have tick := (busTick_reader i hi hf ht hw (by rw [hr]; decide)).trans
      (readerTick_wait (s := s.withBus i) hr)
    by_cases hover : s.fcfg.cmdtimeout ≤ s.reader.timeout
    · have hnil : rest = [] := List.eq_nil_of_length_eq_zero (by bv_omega)
      subst hnil
      have hgive : s.reader.waitTick s.fcfg.cmdtimeout s.sampler = { s.reader with st := .timeout } := by
        rw [Reader.waitTick, if_neg hx, if_pos hover]
      refine ⟨_, _, busRun_cons tick rfl, rfl, rfl, List.forall_mem_singleton.mpr rfl, fun h => ?_,
        fun _ => congrArg Reader.st hgive⟩
      simp at h; bv_omega
    · have hcount : s.reader.waitTick s.fcfg.cmdtimeout s.sampler =
          { s.reader with timeout := s.reader.timeout + 1 } := by
        rw [Reader.waitTick, if_neg hx, if_neg hover]
      have hnext : (s.reader.timeout + 1).toNat = s.reader.timeout.toNat + 1 := by bv_omega
      obtain ⟨t, pads, hrun, hu, hd, hclk, hwait, hgive⟩ := busRun_waits rest
        { s.withBus i with
          pads := releasePads (s.withBus i) true
          sampler := (s.sampler.sample i.cmdI).1
          reader := { s.reader with timeout := s.reader.timeout + 1 } } hi hf ht hw hr
        (by rw [hline]; exact Sampler.sample_high_ne_read hx) hhigh
        (by simp only [withBus_fcfg]; bv_omega) (by simp only [withBus_fcfg, hnext]; omega)
      rw [withBus_reader, withBus_fcfg, withBus_sampler, hcount] at tick
      have hlen : rest.length + (s.reader.timeout + 1).toNat = rest.length + 1 + s.reader.timeout.toNat := by
        omega
      simp only [withBus_fcfg, hlen] at hwait hgive
      exact ⟨t, _, busRun_cons tick hrun, hu, hd, List.forall_mem_cons.mpr ⟨rfl, hclk⟩, hwait, hgive⟩

/-- Settles O19: a run of the wait from count 0, with the sampler off (`busRun_waits`). -/
theorem commandTimeoutIsExact : Obligations.CommandTimeoutIsExact := by
  intro s f inputs hi hw hr h0 hx hf ht hhigh
  have h0 : s.reader.timeout.toNat = 0 := by rw [h0]; rfl
  have run := busRun_waits inputs s hi hf ht hw hr (by rw [hx]; exact nofun) hhigh
  rw [h0, Nat.add_zero] at run
  refine ⟨fun hn => ?_, fun hn => ?_⟩
  · obtain ⟨t, pads, hrun, hu, _, hclk, hwait, _⟩ := run (Nat.zero_le _) (Nat.le_succ_of_le hn)
    exact ⟨t, pads, hrun, (hwait hn).1, (hwait hn).2, hu, hclk⟩
  · obtain ⟨t, pads, hrun, hu, hd, hclk, _, hgive⟩ := run (Nat.zero_le _) hn.le
    exact ⟨t, pads, hrun, hgive hn, hu, hd, hclk⟩

end Sys2Proof.Machine
end

section
/-! PROOFS. Which up frames the bus side pushes, and for which request (R258, R265). -/

namespace Sys2Proof.Machine

/-- `g` is an up frame the block may push for the XFER frame `f` (R258, R262, R263). -/
def Answers (c : Config) (f g : Frame) : Prop :=
  (f.ctrl = tag c.modes .cmd .read .xfer ∧
    (g.ctrl = 0x00 ∨ g = { data := 0, ctrl := 0x02, last := true })) ∨
  (f.ctrl = tag c.modes .data .read .xfer ∧
    (g.ctrl = 0x01 ∨ g = { data := 0, ctrl := 0x03, last := true })) ∨
  (f.ctrl = tag c.modes .data .write .xfer ∧ f.last = true ∧
    ∃ st : BitVec 4, g = { data := 0, ctrl := 0#3 ++ st ++ 1#1, last := false })

/-- A tick leaves `UPQ` alone, or pushes one frame that answers the head of `DOWNQ`. -/
def PushesAnswer (s t : State) : Prop :=
  t.upq = s.upq ∨ ∃ f g, s.downq.head? = some f ∧ t.upq = s.upq.push g ∧ Answers s.cfg f g

/-- The reader pushes a byte or the timeout report of the request it holds (R246, R248, R258). -/
theorem readerTick_pushes {s t : State} (hF : FramerOk s) (e : readerTick s = .next t) :
    PushesAnswer s t := by
  have answer : ∀ g, s.reader.st.holdsHead = true →
      (g.ctrl = 0x00 ∨ g = { data := 0, ctrl := 0x02, last := true }) → t.upq = s.upq.push g →
      PushesAnswer s t := fun g hh hg hq =>
    have ⟨f, hf, ht⟩ := hF.readerHead hh
    .inr ⟨f, g, hf, hq, .inl ⟨ht, hg⟩⟩
  rcases readerTick_eq_next e with ⟨_, rfl⟩ | ⟨_, rfl⟩ | ⟨_, _, rfl⟩ | ⟨_, _, _, rfl⟩ |
    ⟨hr, _, b, _, e⟩ | ⟨_, rfl⟩ | ⟨_, _, rfl⟩ | ⟨hr, _, _, rfl⟩
  · exact .inl rfl
  · exact .inl rfl
  · exact .inl rfl
  · exact .inl rfl
  · rcases forwardByte_eq_next e with ⟨_, rfl⟩ | ⟨_, _, rfl⟩ <;>
      exact answer _ (by rw [hr]; rfl) (.inl rfl) rfl
  · exact .inl rfl
  · exact .inl rfl
  · exact answer _ (by rw [hr]; rfl) (.inr rfl) rfl

/-- The writer pushes nothing (R237). -/
theorem writerTick_upq {h : Option Frame} {s t : State} (hw : s.writer.st ≠ .idle)
    (e : writerTick h s = .next t) : t.upq = s.upq := by
  rcases writerTick_eq_next hw e with ⟨_, rfl⟩ | ⟨_, rfl⟩ | ⟨_, _, _, _, rfl⟩ | ⟨_, _, _, _, _, rfl⟩ <;> rfl

theorem machinesTick_pushes {h : Option Frame} {s t : State} (hF : FramerOk s)
    (e : machinesTick h s = .next t) : PushesAnswer s t := by
  rcases machinesTick_eq_next e with ⟨_, e⟩ | ⟨hw, _, e⟩
  · exact readerTick_pushes hF e
  · exact .inl (writerTick_upq hw e)

/-- A dispatch pushes nothing for the command line, and what DATAPATH's contract allows for its own frames (R262,
R263). -/
theorem dispatchXfer_pushes {f : Frame} {s t : State} (hf : s.downq.head? = some f)
    (hm : s.cfg.modes.mode? f.modeBits = some .xfer) (e : dispatchXfer f s = .next t) :
    PushesAnswer s t := by
  have ht : f.ctrl = tag s.cfg.modes (channelOf (f.ctrl.getLsbD 0)) (directionOf (f.ctrl.getLsbD 1)) .xfer :=
    (congrArg Frame.ctrl (xferFrame_self hm)).symm
  unfold dispatchXfer at e
  split at e <;> rename_i h0 h1 <;> rw [h0, h1] at ht
  · cases e
    exact .inl rfl
  · rcases datapathRead_eq_next e with rfl | ⟨_, b, _, _, rfl⟩ | ⟨_, b, _, _, _, rfl⟩ | ⟨_, _, _, rfl⟩
    · exact .inl rfl
    · exact .inr ⟨f, _, hf, rfl, .inr (.inl ⟨ht, .inl rfl⟩)⟩
    · exact .inr ⟨f, _, hf, rfl, .inr (.inl ⟨ht, .inl rfl⟩)⟩
    · exact .inr ⟨f, _, hf, rfl, .inr (.inl ⟨ht, .inr rfl⟩)⟩
  · cases e
    exact .inl rfl
  · rcases datapathWrite_eq_next e with rfl | ⟨_, _, _, rfl⟩ | ⟨hl, _, _, st, ⟨_, rfl⟩ | ⟨_, _, rfl⟩⟩
    · exact .inl rfl
    · exact .inl rfl
    · exact .inr ⟨f, _, hf, rfl, .inr (.inr ⟨ht, hl, st, rfl⟩)⟩
    · exact .inr ⟨f, _, hf, rfl, .inr (.inr ⟨ht, hl, st, rfl⟩)⟩

/-- A bus tick pushes only an answer to the head of `DOWNQ`: with a configuration or reserved frame there, no
machine holds a request (R224, R257). -/
theorem busStep_pushes {s t : State} (h : Inv s) (e : busStep s = .next t) : PushesAnswer s t := by
  rcases busStep_cases e with ⟨e, _⟩ | ⟨f, hf, hm, _, _, e⟩ | ⟨f, u, r, hf, hm, hu, _, rfl⟩
  · exact machinesTick_pushes h.framer e
  · exact dispatchXfer_pushes hf hm e
  · exact .inl (machinesTick_holdsNone (holdsNone_of_mode h.framer h.injective hf hm) hu).2.1

/-- Settles O53: a changed `UPQ` has one frame more, and it answers the head (`busStep_pushes`). -/
theorem busSidePushesOnlyWhenAsked : Obligations.BusSidePushesOnlyWhenAsked := by
  intro s t b h e hne
  rcases busStep_pushes (h.withBus b) e with hq | ⟨f, g, hf, hq, ha⟩
  · exact absurd (congrArg Queue.items hq) hne
  · exact ⟨f, g, hf, congrArg Queue.items hq, ha⟩

end Sys2Proof.Machine
end

section
/-! PROOFS. The bit-serial CRC register of both engines (R281, R291) at any width and any polynomial: it is linear,
and with an odd polynomial no step forgets a difference; what follows for `crc7` (R282) and `crc16`. -/

namespace Sys2Proof.Machine

/-! The bits of words and of bytes. -/

theorem bitsMsbFirst_congr {w w' : Nat} {u : BitVec w} {v : BitVec w'} : ∀ {n : Nat},
    (∀ i < n, u.getLsbD i = v.getLsbD i) → bitsMsbFirst u n = bitsMsbFirst v n
  | 0, _ => rfl
  | n + 1, h => congrArg₂ List.cons (h n (Nat.lt_succ_self n))
      (bitsMsbFirst_congr fun i hi => h i (Nat.lt_succ_of_lt hi))

/-- The bits of a concatenation are those of its parts in sequence. -/
theorem bitsMsbFirst_append {w k : Nat} (u : BitVec w) (v : BitVec k) : ∀ n : Nat,
    bitsMsbFirst (u ++ v) (n + k) = bitsMsbFirst u n ++ bitsMsbFirst v k
  | 0 => by
    rw [Nat.zero_add]
    exact bitsMsbFirst_congr fun i hi => by simp [BitVec.getLsbD_append, hi]
  | n + 1 => by
    rw [show n + 1 + k = n + k + 1 by omega]
    exact congrArg₂ List.cons (by simp [BitVec.getLsbD_append]) (bitsMsbFirst_append u v n)

theorem length_bitsMsbFirst {w : Nat} (v : BitVec w) : ∀ n, (bitsMsbFirst v n).length = n
  | 0 => rfl
  | n + 1 => congrArg Nat.succ (length_bitsMsbFirst v n)

theorem length_flatMap_bits (bytes : List Byte) :
    (bytes.flatMap (bitsMsbFirst · 8)).length = 8 * bytes.length := by
  simp [List.length_flatMap, length_bitsMsbFirst, Nat.mul_comm]

/-! One bit. -/

/-- One bit into a CRC register of `w` bits: the step of R281 and of R291. -/
def crcStep {w : Nat} (poly c : BitVec w) (b : Bool) : BitVec w :=
  if c.getLsbD (w - 1) != b then (c <<< 1) ^^^ poly else c <<< 1

/-- A sequence of bits into the register, first bit first. -/
def crcRun {w : Nat} (poly c : BitVec w) (bits : List Bool) : BitVec w := bits.foldl (crcStep poly) c

theorem crc7_eq_crcRun (poly : BitVec 7) (bits : List Bool) : crc7 poly bits = crcRun poly 0 bits := rfl

/-- The bytes of a CRC16, bit 7 of each first, are one sequence of bits (R291). -/
theorem foldl_crc16Update (poly c : BitVec 16) (bytes : List Byte) :
    bytes.foldl (crc16Update poly) c = crcRun poly c (bytes.flatMap (bitsMsbFirst · 8)) :=
  List.foldl_flatMap.symm

theorem crcRun_append {w : Nat} (poly c : BitVec w) (l m : List Bool) :
    crcRun poly c (l ++ m) = crcRun poly (crcRun poly c l) m := List.foldl_append

section
variable {w : Nat} {poly : BitVec w}

theorem crcStep_eq_xor (c : BitVec w) (b : Bool) :
    crcStep poly c b = c <<< 1 ^^^ (if xor (c.getLsbD (w - 1)) b then poly else 0#w) := by
  cases h : c.getLsbD (w - 1) <;> cases b <;> simp [crcStep, h]

/-- The step is linear in the register and the bit taken together. -/
theorem crcStep_xor (c d : BitVec w) (a b : Bool) :
    crcStep poly (c ^^^ d) (xor a b) = crcStep poly c a ^^^ crcStep poly d b := by
  have added (x y : Bool) : (if xor x y then poly else 0#w) =
      (if x then poly else 0#w) ^^^ (if y then poly else 0#w) := by
    cases x <;> cases y <;> simp
  simp only [crcStep_eq_xor, BitVec.getLsbD_xor, BitVec.shiftLeft_xor_distrib, added]
  ac_rfl

/-- A bit equal to the top bit is shifted in without the polynomial. -/
theorem crcStep_topBit {c : BitVec w} {b : Bool} (h : c.getLsbD (w - 1) = b) :
    crcStep poly c b = c <<< 1 := by
  simp [crcStep, h]

theorem crcStep_zero_false : crcStep poly 0 false = 0 :=
  (crcStep_topBit BitVec.getLsbD_zero).trans (BitVec.zero_shiftLeft 1)

/-- With an odd polynomial the lowest bit of the next register tells whether the polynomial was added. -/
theorem getLsbD_zero_crcStep (h0 : poly.getLsbD 0 = true) (c : BitVec w) (b : Bool) :
    (crcStep poly c b).getLsbD 0 = (c.getLsbD (w - 1) != b) := by
  cases hb : c.getLsbD (w - 1) != b <;> simp [crcStep, hb, h0]

/-- A shift by one loses the top bit only. -/
theorem eq_of_shiftLeft_one_eq {c d : BitVec w} (hs : c <<< 1 = d <<< 1)
    (ht : c.getLsbD (w - 1) = d.getLsbD (w - 1)) : c = d := by
  refine BitVec.eq_of_getLsbD_eq fun i hi => ?_
  by_cases hlast : i = w - 1
  · exact hlast ▸ ht
  · have bit := congrArg (BitVec.getLsbD · (i + 1)) hs
    have hlt : i + 1 < w := by omega
    simpa only [BitVec.getLsbD_shiftLeft, hlt, decide_true, Nat.add_sub_cancel, Bool.true_and,
      Nat.not_lt_of_le (Nat.le_add_left 1 i), decide_false, Bool.not_false] using bit

/-- A step with an odd polynomial loses nothing of the register. -/
theorem crcStep_injective (h0 : poly.getLsbD 0 = true) (b : Bool) :
    Function.Injective (crcStep poly · b) := by
  intro c d h
  have low := congrArg (BitVec.getLsbD · 0) h
  simp only [getLsbD_zero_crcStep h0] at low
  have top : c.getLsbD (w - 1) = d.getLsbD (w - 1) := by simpa using low
  refine eq_of_shiftLeft_one_eq ?_ top
  simp only [crcStep, top] at h
  split at h
  · simpa using h
  · exact h

/-- With an odd polynomial a step tells the two bits apart. -/
theorem crcStep_not_ne (h0 : poly.getLsbD 0 = true) (c : BitVec w) (b : Bool) :
    crcStep poly c (!b) ≠ crcStep poly c b := by
  intro h
  have low := congrArg (BitVec.getLsbD · 0) h
  simp [getLsbD_zero_crcStep h0] at low

/-! Sequences of bits. -/

theorem crcRun_zipWith_xor : ∀ (l m : List Bool) (c d : BitVec w), m.length = l.length →
    crcRun poly (c ^^^ d) (List.zipWith xor l m) = crcRun poly c l ^^^ crcRun poly d m
  | [], [], _, _, _ => rfl
  | a :: l, b :: m, c, d, h => by
    have ih := crcRun_zipWith_xor l m (crcStep poly c a) (crcStep poly d b) (Nat.succ.inj h)
    rw [← crcStep_xor] at ih
    exact ih

theorem crcRun_zeros (n : Nat) : crcRun poly 0 (List.replicate n false) = 0 := by
  induction n with
  | zero => rfl
  | succ n ih => exact (congrArg (crcRun poly · _) crcStep_zero_false).trans ih

theorem crcRun_injective (h0 : poly.getLsbD 0 = true) :
    ∀ bits : List Bool, Function.Injective (crcRun poly · bits)
  | [] => Function.injective_id
  | b :: bits => (crcRun_injective h0 bits).comp (crcStep_injective h0 b)

/-- A flipped bit makes a difference in its step, and no later step forgets it. -/
theorem crcRun_flipBit_ne (h0 : poly.getLsbD 0 = true) : ∀ (bits : List Bool) (i : Nat) (c : BitVec w),
    i < bits.length → crcRun poly c (flipBit bits i) ≠ crcRun poly c bits
  | [], _, _, hi => absurd hi (Nat.not_lt_zero _)
  | b :: bits, 0, c, _ => (crcRun_injective h0 bits).ne (crcStep_not_ne h0 c b)
  | b :: bits, i + 1, c, hi =>
    crcRun_flipBit_ne h0 bits i (crcStep poly c b) (Nat.lt_of_succ_lt_succ hi)

/-- The low `n` bits of `v` empty a register that holds them at its top: each is the top bit of its step. -/
theorem crcRun_shiftLeft_bits (v : BitVec w) : ∀ n ≤ w,
    crcRun poly (v <<< (w - n)) (bitsMsbFirst v n) = 0
  | 0, _ => BitVec.shiftLeft_eq_zero (Nat.le_refl w)
  | n + 1, hn => by
    have top : (v <<< (w - (n + 1))).getLsbD (w - 1) = v.getLsbD n := by
      rw [BitVec.getLsbD_shiftLeft, show w - 1 - (w - (n + 1)) = n by omega]
      simp [show w - 1 < w by omega, show ¬ w - 1 < w - (n + 1) by omega]
    have next : v <<< (w - (n + 1)) <<< 1 = v <<< (w - n) := by
      rw [← BitVec.shiftLeft_add, show w - (n + 1) + 1 = w - n by omega]
    have shifted := (crcStep_topBit (poly := poly) top).trans next
    exact (congrArg (crcRun poly · _) shifted).trans (crcRun_shiftLeft_bits v n (Nat.le_of_succ_le hn))

/-- A register that takes its own bits is empty afterwards: the self-check of R282. -/
theorem crcRun_own_bits (c : BitVec w) : crcRun poly c (bitsMsbFirst c w) = 0 := by
  have h := crcRun_shiftLeft_bits (poly := poly) c w (Nat.le_refl w)
  rwa [Nat.sub_self, BitVec.shiftLeft_zero] at h

end

/-- Settles O39: the four properties of the register, at 7 bits. -/
theorem crc7Properties : Obligations.Crc7Properties := by
  intro bits
  simp only [crc7_eq_crcRun]
  refine ⟨fun other h => crcRun_zipWith_xor bits other 0 0 h, fun n => ?_, ?_,
    fun i hi => crcRun_flipBit_ne rfl bits i 0 hi⟩
  · rw [crcRun_append, crcRun_zeros]
  · rw [crcRun_append, crcRun_own_bits]

/-- Settles O40: the words and messages of R285, R289 and R291, evaluated. -/
theorem crcWorkedValues : Obligations.CrcWorkedValues := by
  unfold Obligations.CrcWorkedValues
  decide +kernel

end Sys2Proof.Machine
end

section
/-! PROOFS. The CRC16 engines over a whole block (R292 to R298): what the generator and the checker hold after the
payload, what the checker reports after the trailer, and that a block with its own trailer is one whose bits empty
the register. -/

namespace Sys2Proof.Machine

/-! The engines over the payload and the trailer. -/

/-- A byte taken moves from the bytes to come to the bytes counted. -/
theorem toNat_add_one_add {k n : BitVec 16} {m : Nat} (h : k.toNat + (m + 1) = n.toNat) :
    (k + 1).toNat + m = n.toNat := by
  bv_omega

/-- The generator after the rest of a payload has the CRC of it, and the trailer is next (R292). -/
theorem generatorRun_payload (c : Config) {n : BitVec 16} : ∀ {g : Generator} {p : List Byte}, p ≠ [] →
    g.phase = .payload → g.cnt.toNat + p.length = n.toNat →
    (generatorRun c n g p).1 = { crc := p.foldl (crc16Update c.crc16Poly) g.crc, cnt := 0, phase := .crcHi }
  | _, [], hp, _, _ => absurd rfl hp
  | _, [b], _, hg, hn => (genAdvance_payload hg c n b).trans (if_pos hn)
  | g, b :: b' :: p, _, hg, hn => by
    have more : ¬ g.cnt.toNat + 1 = n.toNat := by rw [← hn]; simp
    show (generatorRun c n (genAdvance c n b g) (b' :: p)).1 = _
    rw [genAdvance_payload hg, if_neg more]
    exact generatorRun_payload c (List.cons_ne_nil b' p) rfl (toNat_add_one_add hn)

/-- The checker after the rest of a payload has the CRC of it, waits for the trailer and has reported nothing
(R295). -/
theorem checkerRun_payload : ∀ {s : State} {p : List Byte}, p ≠ [] → s.chk.phase = .payload →
    s.chk.cnt.toNat + p.length = s.host.blocksize.toNat →
    (checkerRun p s).chk =
        { s.chk with crc := p.foldl (crc16Update s.cfg.crc16Poly) s.chk.crc, cnt := 0, phase := .crcHi } ∧
      (checkerRun p s).dataf = s.dataf
  | _, [], hp, _, _ => absurd rfl hp
  | s, [b], _, hk, hn => by
    show (checkerTake b s).chk = _ ∧ (checkerTake b s).dataf = _
    simp only [List.length_cons, List.length_nil] at hn
    rw [checkerTake_payload b hk]
    simp [hn]
  | s, b :: b' :: p, _, hk, hn => by
    have more : ¬ s.chk.cnt.toNat + 1 = s.host.blocksize.toNat := by rw [← hn]; simp
    show (checkerRun (b' :: p) (checkerTake b s)).chk = _ ∧ (checkerRun (b' :: p) (checkerTake b s)).dataf = _
    rw [checkerTake_payload b hk]
    simp only [more, decide_false, Bool.false_eq_true, if_false]
    exact checkerRun_payload (List.cons_ne_nil b' p) rfl (toNat_add_one_add hn)

/-- A whole block from the checker's reset state: it is ready for the next block, and `data_crcerr` is raised just
when the trailer is not the CRC of the payload (R295, R296). -/
theorem checkerRun_block {s : State} {p : List Byte} (hi lo : Byte) (hp : p ≠ [])
    (hn : p.length = s.host.blocksize.toNat) (hk : s.chk = .cleared) :
    (checkerRun (p ++ [hi, lo]) s).chk = { Checker.cleared with hi := hi } ∧
      (checkerRun (p ++ [hi, lo]) s).dataf =
        { s.dataf with crcerr := s.dataf.crcerr || hi ++ lo != crc16 s.cfg.crc16Poly p } := by
  obtain ⟨hchk, hdat⟩ := checkerRun_payload (s := s) hp (by rw [hk]; rfl)
    (by rw [hk, ← hn]; exact Nat.zero_add _)
  rw [hk] at hchk
  have inTurn : checkerRun (p ++ [hi, lo]) s = checkerTake lo (checkerTake hi (checkerRun p s)) :=
    List.foldl_append
  rw [inTurn, checkerTake_crcHi hi (by rw [hchk]), checkerTake_crcLo lo rfl, hchk, hdat]
  exact ⟨rfl, rfl⟩

/-! The trailer. -/

theorem extractLsb'_append_halves (c : BitVec 16) : c.extractLsb' 8 8 ++ c.extractLsb' 0 8 = c := by
  rw [BitVec.extractLsb'_append_extractLsb'_eq_extractLsb' (by decide)]
  exact BitVec.extractLsb'_eq_self

/-- The bits of a payload and of its CRC empty the register (R298). -/
theorem crcRun_block_own_trailer {poly : BitVec 16} {p : List Byte} {hi lo : Byte}
    (h : hi ++ lo = crc16 poly p) : crcRun poly 0 ((p ++ [hi, lo]).flatMap (bitsMsbFirst · 8)) = 0 := by
  have trailer : [hi, lo].flatMap (bitsMsbFirst · 8) = bitsMsbFirst (crc16 poly p) 16 :=
    (h ▸ bitsMsbFirst_append hi lo 8).symm
  have payload : crcRun poly 0 (p.flatMap (bitsMsbFirst · 8)) = crc16 poly p :=
    (foldl_crc16Update poly 0 p).symm
  rw [List.flatMap_append, crcRun_append, payload, trailer, crcRun_own_bits]

/-- A block is a payload and the two bytes of a trailer. -/
theorem exists_payload_trailer {block : List Byte} {n : Nat} (h : block.length = n + 2) :
    ∃ p hi lo, block = p ++ [hi, lo] ∧ p.length = n := by
  obtain ⟨hi, lo, htail⟩ : ∃ hi lo, block.drop n = [hi, lo] :=
    List.length_eq_two.mp (by rw [List.length_drop]; omega)
  exact ⟨block.take n, hi, lo, by rw [← htail, List.take_append_drop], by rw [List.length_take]; omega⟩

/-- Settles O41: what each engine holds after the payload is the same CRC (`generatorRun_payload`,
`checkerRun_block`). -/
theorem generatorCheckerRoundTrip : Obligations.GeneratorCheckerRoundTrip := by
  intro s payload hi lo hp hn hk hc g
  have hg : g = { crc := crc16 s.cfg.crc16Poly payload, cnt := 0, phase := .crcHi } :=
    generatorRun_payload s.cfg hp rfl (by rw [← hn]; exact Nat.zero_add _)
  obtain ⟨hchk, hdat⟩ := checkerRun_block hi lo hp hn hk
  rw [hchk, hdat, (checkerRun_block _ _ hp hn hk).2, extractLsb'_append_halves, hg, hc]
  refine ⟨rfl, rfl, ?_, ?_, rfl, rfl, rfl⟩
  · rw [bne_self_eq_false, Bool.or_false, ← hc]
  · rw [Bool.false_or, bne_iff_ne]

/-- Settles O42: with its own trailer the corrupted block would empty the register, as the block sent does, but a
flipped bit changes what the register ends with (`crcRun_flipBit_ne`). -/
theorem singleBitCorruptionIsReported : Obligations.SingleBitCorruptionIsReported := by
  intro s payload block i hpoly hp hn hk hlen hi hflip
  obtain ⟨p, b, b', rfl, hlen'⟩ := exists_payload_trailer hlen
  have hp' : p ≠ [] := fun h => hp (List.eq_nil_of_length_eq_zero (hlen' ▸ congrArg List.length h))
  rw [(checkerRun_block b b' hp' (hlen'.trans hn) hk).2, hpoly]
  have mismatch : b ++ b' ≠ crc16 0x1021 p := by
    intro own
    have received := crcRun_block_own_trailer own
    have sent := crcRun_block_own_trailer (extractLsb'_append_halves (crc16 0x1021 payload))
    rw [hflip] at received
    have inBlock : i < 8 * (payload.length + 2) := hlen ▸ hi
    exact crcRun_flipBit_ne rfl _ i 0 (by rw [length_flatMap_bits, List.length_append]; exact inBlock)
      (received.trans sent.symm)
  exact (congrArg (s.dataf.crcerr || ·) (bne_iff_ne.mpr mismatch)).trans (Bool.or_true _)

end Sys2Proof.Machine
end

section
/-! PROOFS. What each action does to the fields of its queue (R322, R323, R326), and that a step of the machine
does at most one of them. -/

namespace Sys2Proof.Machine

/-- A push takes a credit and puts its frame at the tail (R322). -/
theorem Queue.ProducerStep.eq_or_append {a b : Queue} (h : a.ProducerStep b) :
    b = a ∨ (0 < a.cred ∧ ∃ f, b = { items := a.items ++ [f], vis := a.vis, cred := a.cred - 1 }) :=
  h.imp_right fun ⟨hr, f, hb⟩ => ⟨a.ready_iff.mp hr, f, hb⟩

/-- A pop takes the oldest frame, one that the consumer sees (R323). -/
theorem Queue.ConsumerStep.eq_or_uncons {a b : Queue} (h : a.ConsumerStep b) :
    b = a ∨ (0 < a.vis ∧
      ∃ f rest, a.items = f :: rest ∧ b = { items := rest, vis := a.vis - 1, cred := a.cred }) := by
  rcases h with rfl | ⟨⟨f, hf⟩, rfl⟩
  · exact .inl rfl
  · obtain ⟨hv, rest, hr⟩ := Queue.head?_eq_some.mp hf
    exact .inr ⟨hv, f, rest, hr, by rw [Queue.pop, hr, List.tail_cons]⟩

theorem Queue.syncVis_of_lt {a : Queue} (h : a.vis < a.items.length) :
    a.syncVis = { a with vis := a.vis + 1 } := if_pos h

theorem Queue.syncCred_of_lt {a : Queue} (h : a.cred < 2 - a.items.length) :
    a.syncCred = { a with cred := a.cred + 1 } := if_pos h

/-- A step of the lag that is not enabled does nothing (R326). -/
theorem Queue.syncVis_cases (a : Queue) :
    a.syncVis = a ∨ (a.vis < a.items.length ∧ a.syncVis = { a with vis := a.vis + 1 }) := by
  by_cases h : a.vis < a.items.length
  · exact .inr ⟨h, Queue.syncVis_of_lt h⟩
  · exact .inl (if_neg h)

/-- A step of the lag that is not enabled does nothing (R326). -/
theorem Queue.syncCred_cases (a : Queue) :
    a.syncCred = a ∨ (a.cred < 2 - a.items.length ∧ a.syncCred = { a with cred := a.cred + 1 }) := by
  by_cases h : a.cred < 2 - a.items.length
  · exact .inr ⟨h, Queue.syncCred_of_lt h⟩
  · exact .inl (if_neg h)

@[simp] theorem State.queue_advance (q : QueueName) (s : State) : s.advance.queue q = s.queue q := by
  cases q <;> rfl

@[simp] theorem State.queue_withEvent (q : QueueName) (e : Event) (s : State) :
    (s.withEvent e).queue q = s.queue q := by
  cases q <;> rfl

@[simp] theorem State.queue_onQueue (q : QueueName) (f : Queue → Queue) (s : State) :
    (s.onQueue q f).queue q = f (s.queue q) := by
  cases q <;> rfl

/-- Settles O49: each event moves a queue as `runEvent_queueMove` says, by one action of one end or of the
lag; and a step of the lag that is enabled shows what is hidden. -/
theorem framesKeepTheirOrder : Obligations.FramesKeepTheirOrder := by
  refine ⟨fun s t h hne ht q => ?_, fun s q => ⟨fun hv => ?_, fun hc => ?_⟩⟩
  · have move := runEvent_queueMove h.advance ht q
    rw [State.queue_advance] at move
    generalize nextEvent s = e at hne move ⊢
    cases e with
    | control i =>
      cases q with
      | downq => exact move.eq_or_append.imp_right fun push => .inl ⟨⟨i, rfl⟩, push⟩
      | upq => exact move.eq_or_uncons.imp_right fun pop => .inr (.inl ⟨⟨i, rfl⟩, pop⟩)
    | bus i =>
      cases q with
      | downq => exact move.eq_or_uncons.imp_right fun pop => .inr (.inl ⟨⟨i, rfl⟩, pop⟩)
      | upq => exact move.eq_or_append.imp_right fun push => .inl ⟨⟨i, rfl⟩, push⟩
    | syncVis q' =>
      by_cases hq : q' = q
      · obtain rfl := hq
        rw [QueueMove, if_pos rfl] at move
        rw [move]
        exact (Queue.syncVis_cases _).imp_right fun shown => .inr (.inr (.inl ⟨rfl, shown⟩))
      · exact .inl (move.trans (if_neg hq))
    | syncCred q' =>
      by_cases hq : q' = q
      · obtain rfl := hq
        rw [QueueMove, if_pos rfl] at move
        rw [move]
        exact (Queue.syncCred_cases _).imp_right fun shown => .inr (.inr (.inr ⟨rfl, shown⟩))
      · exact .inl (move.trans (if_neg hq))
    | reset => exact absurd rfl hne
  · refine ⟨_, rfl, ?_⟩
    rw [State.queue_onQueue, State.queue_advance, State.queue_withEvent, Queue.syncVis_of_lt hv]
  · refine ⟨_, rfl, ?_⟩
    rw [State.queue_onQueue, State.queue_advance, State.queue_withEvent, Queue.syncCred_of_lt hc]

end Sys2Proof.Machine
end

section
/-! PROOFS. What reset does and what it leaves of the state before (R380, R381). -/

namespace Sys2Proof.Machine

/-- Settles O48: the state after reset is built from the parameters, the listed events and the step count alone
(`step_reset`), so two states that agree in these are reset to the same state. -/
theorem resetReachesEverything : Obligations.ResetReachesEverything := by
  refine fun s => ⟨step_reset s, fun t hcfg henv htime => ?_⟩
  rw [step_reset, step_reset, hcfg, henv, htime]

end Sys2Proof.Machine
end
